-- ==== Sys2Proof/Word.lean ====
section
/-! DEFINITION. The word types of the block: bytes of the input buffer, the 72-bit header word, stream offsets. -/

namespace Sys2Proof

/-- One byte of the input buffer (spec/10_state.md R23). -/
abbrev Byte := BitVec 8

/-- The header word `HW[71:0]`: bit `HW[71 - p]` is stream bit `p` (spec/00_scope.md section 5.1). -/
abbrev HeaderWord := BitVec 72

/-- A stream offset as `CUR` and `ERR_POS` hold it, 7 bits (spec/10_state.md R25, R34). -/
abbrev StreamPos := BitVec 7

end Sys2Proof
end

