-- ==== Sys2Proof/Syntax.lean ====
section
/-! DEFINITION. The syntax: header forms (the block's instructions), the assembler's header statements and the
host's statements. -/

namespace Sys2Proof

/-- The seven header forms of spec/30_encoding.md R100, one constructor per row of the opcode table, with every
field of the form in wire order (R101 to R105). `pad` and `rest` are the bits after the form's last field, which
the block never reads (spec/20_memory.md R61). -/
inductive Instr where
  /-- HDR.CH, 56 bits: coding_profile 0 (R102, R180). -/
  | hdrCh (nn : BitVec 3) (sr : BitVec 4) (crc1 : Byte) (cfg : BitVec 7) (res : BitVec 2) (br : BitVec 4)
      (crc2 : Byte) (pad : BitVec 16)
  /-- HDR.OBJ, 58 bits: coding_profile 1, sound_bed_type 0 (R103, R202). -/
  | hdrObj (nn : BitVec 3) (sr : BitVec 4) (crc1 : Byte) (obj : BitVec 7) (obr : BitVec 4) (res : BitVec 2)
      (crc2 : Byte) (pad : BitVec 14)
  /-- HDR.CHOBJ, 69 bits: coding_profile 1, sound_bed_type 1 (R104, R206). -/
  | hdrChobj (nn : BitVec 3) (sr : BitVec 4) (crc1 : Byte) (cfg : BitVec 7) (bbr : BitVec 4) (obj : BitVec 7)
      (obr : BitVec 4) (res : BitVec 2) (crc2 : Byte) (pad : BitVec 3)
  /-- HDR.HOA, 53 bits: coding_profile 2 (R105, R230). -/
  | hdrHoa (nn : BitVec 3) (sr : BitVec 4) (crc1 : Byte) (ord : BitVec 4) (res : BitVec 2) (br : BitVec 4)
      (crc2 : Byte) (pad : BitVec 19)
  /-- HDR.RSV.SBT: coding_profile 1, sound_bed_type 2 or 3 (R213). -/
  | hdrRsvSbt (nn : BitVec 3) (sr : BitVec 4) (crc1 : Byte) (sbt : BitVec 2) (rest : BitVec 35)
  /-- HDR.RSV.PROF3: coding_profile 3 (R155). -/
  | hdrRsvProf3 (nn : BitVec 3) (sr : BitVec 4) (crc1 : Byte) (rest : BitVec 37)
  /-- HDR.RSV.PROF4_7: coding_profile 4 to 7 (R156). -/
  | hdrRsvProf4to7 (nn prof : BitVec 3) (sr : BitVec 4) (crc1 : Byte) (rest : BitVec 37)
deriving DecidableEq, Repr

/-- A header statement of the assembler, its operands as the numbers written (spec/30_encoding.md R113), in wire
order. `pad` is optional and is 0 where it is left out. Reserved forms and corrupted prefixes are written with `raw`.
Statements are terms, not text (log 22). -/
inductive HeaderStmt where
  | ch (nn sr crc1 cfg res br crc2 : Nat) (pad : Nat := 0)
  | obj (nn sr crc1 obj obr res crc2 : Nat) (pad : Nat := 0)
  | chobj (nn sr crc1 cfg bbr obj obr res crc2 : Nat) (pad : Nat := 0)
  | hoa (nn sr crc1 ord res br crc2 : Nat) (pad : Nat := 0)
  | raw (b0 b1 b2 b3 b4 b5 b6 b7 b8 : Nat)
deriving DecidableEq, Repr

/-- A host statement (spec/30_encoding.md R115); `len` defaults to 9. -/
inductive HostStmt where
  | reset
  | decode (h : HeaderStmt) (len : Nat := 9)
  | wait
deriving DecidableEq, Repr

end Sys2Proof
end

