-- ==== Sys2Proof/WellFormed.lean ====
section
/-! DEFINITION. Which instruction terms the encoding has: the selector a reserved form holds is one of the values
that select it (spec/30_encoding.md R100). Every other operand is held at exactly its field's width. -/

namespace Sys2Proof

/-- A term of `Instr` is well formed when its selector fields select its own form (spec/30_encoding.md R100, R108). -/
def Instr.wf : Instr → Bool
  | .hdrCh _ _ _ _ _ _ _ _ => true
  | .hdrObj _ _ _ _ _ _ _ _ => true
  | .hdrChobj _ _ _ _ _ _ _ _ _ _ => true
  | .hdrHoa _ _ _ _ _ _ _ _ => true
  | .hdrRsvSbt _ _ _ sbt _ => decide (2 ≤ sbt.toNat)
  | .hdrRsvProf3 _ _ _ _ => true
  | .hdrRsvProf4to7 _ prof _ _ _ => decide (4 ≤ prof.toNat)

end Sys2Proof
end

