-- ==== Sys2Proof/Decode.lean ====
section
/-! DEFINITION. Decoding a header word into its form, the encoder, and the assembler of header statements. -/

namespace Sys2Proof

/-- The `w`-bit field of a header word whose lowest bit is `HW[lo]`, that is `HW[lo+w-1 : lo]`
(spec/00_scope.md section 5.1). -/
def HeaderWord.slice (h : HeaderWord) (lo w : Nat) : BitVec w :=
  h.extractLsb' lo w

/-- The nine bytes of a header word, `IB[k] = HW[71-8k : 64-8k]` (spec/30_encoding.md R114). -/
def HeaderWord.bytes (h : HeaderWord) : Vector Byte 9 :=
  #v[h.slice 64 8, h.slice 56 8, h.slice 48 8, h.slice 40 8, h.slice 32 8, h.slice 24 8, h.slice 16 8,
    h.slice 8 8, h.slice 0 8]

/-- The header word of nine bytes, `IB[0]` in bits 71..64 (spec/00_scope.md section 5.1). -/
def headerWordOf (ib : Vector Byte 9) : HeaderWord :=
  ib[0] ++ ib[1] ++ ib[2] ++ ib[3] ++ ib[4] ++ ib[5] ++ ib[6] ++ ib[7] ++ ib[8]

/-- Why nine bytes (or fewer) are no header of any form: the prefix checks of spec/30_encoding.md R108 that the
opcode table's masks fix, and the length check of R109. -/
inductive DecodeReject where
  /-- Fewer than nine bytes (R109, BufferExhausted). -/
  | tooShort
  /-- `HW[71:60]` is not 0xFFF. -/
  | syncMismatch
  /-- `HW[59:56]` is not 2. -/
  | unsupportedCodec
  /-- `HW[55]` is 1. -/
  | reservedBitViolation
deriving DecidableEq, Repr

/-- What a decoder answers. -/
inductive Decoded where
  | form (i : Instr)
  | reject (r : DecodeReject)
deriving DecidableEq, Repr

/-- The form of a header word whose fixed prefix is right: by coding_profile `HW[51:49]` and, for profile 1, by
sound_bed_type `HW[36:35]` alone (spec/30_encoding.md R108). A sampling_rate_index of 9 or more is an operand
value, refused by the step `S_SR`; the opcode table's masks leave it free (log 7). -/
def HeaderWord.form (h : HeaderWord) : Instr :=
  let nn := h.slice 52 3
  let prof := h.slice 49 3
  let sr := h.slice 45 4
  let crc1 := h.slice 37 8
  let sbt := h.slice 35 2
  match prof.toNat with
  | 0 => .hdrCh nn sr crc1 (h.slice 30 7) (h.slice 28 2) (h.slice 24 4) (h.slice 16 8) (h.slice 0 16)
  | 1 =>
    match sbt.toNat with
    | 0 => .hdrObj nn sr crc1 (h.slice 28 7) (h.slice 24 4) (h.slice 22 2) (h.slice 14 8) (h.slice 0 14)
    | 1 => .hdrChobj nn sr crc1 (h.slice 28 7) (h.slice 24 4) (h.slice 17 7) (h.slice 13 4) (h.slice 11 2)
        (h.slice 3 8) (h.slice 0 3)
    | _ => .hdrRsvSbt nn sr crc1 sbt (h.slice 0 35)
  | 2 => .hdrHoa nn sr crc1 (h.slice 33 4) (h.slice 31 2) (h.slice 27 4) (h.slice 19 8) (h.slice 0 19)
  | 3 => .hdrRsvProf3 nn sr crc1 (h.slice 0 37)
  | _ => .hdrRsvProf4to7 nn prof sr crc1 (h.slice 0 37)

/-- Decoding a header word: the fixed prefix in the order of spec/30_encoding.md R108, then the form. -/
def HeaderWord.decode (h : HeaderWord) : Decoded :=
  if h.slice 60 12 ≠ 0xFFF#12 then .reject .syncMismatch
  else if h.slice 56 4 ≠ 2#4 then .reject .unsupportedCodec
  else if h.slice 55 1 ≠ 0#1 then .reject .reservedBitViolation
  else .form h.form

/-- Decoding a list of bytes, first byte first. Bytes after the ninth are not part of the header. -/
def decodeBytes : List Byte → Decoded
  | b0 :: b1 :: b2 :: b3 :: b4 :: b5 :: b6 :: b7 :: b8 :: _ =>
    (headerWordOf #v[b0, b1, b2, b3, b4, b5, b6, b7, b8]).decode
  | _ => .reject .tooShort

/-- The header word whose bits above `nbits` are 0. The opcode table numbers the whole header as one 72-bit word,
bit 71 the first bit read (log 9). -/
def tableWord (nbits w : Nat) : HeaderWord :=
  BitVec.ofNat 72 (w % 2 ^ nbits)

/-- The instruction the decoder reads from a word of the opcode table's numbering, laid out as its nine bytes. -/
def decodeTableWord (nbits w : Nat) : Option Instr :=
  match decodeBytes (tableWord nbits w).bytes.toList with
  | .form i => some i
  | .reject _ => none

/-- The fixed prefix and the fields every form has: sync 0xFFF, codec_id 2, ancillary_flag 0, then nn_type,
coding_profile, sampling_rate_index, crc1 (spec/30_encoding.md R101). -/
def encodePrefix (nn prof : BitVec 3) (sr : BitVec 4) (crc1 : Byte) : BitVec 35 :=
  0xFFF#12 ++ 2#4 ++ 0#1 ++ nn ++ prof ++ sr ++ crc1

/-- The prefix of an instruction: its form fixes the coding profile (spec/30_encoding.md R100, R101). -/
def encodeFront : Instr → BitVec 35
  | .hdrCh nn sr crc1 _ _ _ _ _ => encodePrefix nn 0#3 sr crc1
  | .hdrObj nn sr crc1 _ _ _ _ _ => encodePrefix nn 1#3 sr crc1
  | .hdrChobj nn sr crc1 _ _ _ _ _ _ _ => encodePrefix nn 1#3 sr crc1
  | .hdrHoa nn sr crc1 _ _ _ _ _ => encodePrefix nn 2#3 sr crc1
  | .hdrRsvSbt nn sr crc1 _ _ => encodePrefix nn 1#3 sr crc1
  | .hdrRsvProf3 nn sr crc1 _ => encodePrefix nn 3#3 sr crc1
  | .hdrRsvProf4to7 nn prof sr crc1 _ => encodePrefix nn prof sr crc1

/-- The 37 bits after the prefix: the form's fields in wire order, then the bits that are never read
(spec/30_encoding.md R102 to R105). -/
def encodeRest : Instr → BitVec 37
  | .hdrCh _ _ _ cfg res br crc2 pad => cfg ++ res ++ br ++ crc2 ++ pad
  | .hdrObj _ _ _ obj obr res crc2 pad => 0#2 ++ obj ++ obr ++ res ++ crc2 ++ pad
  | .hdrChobj _ _ _ cfg bbr obj obr res crc2 pad => 1#2 ++ cfg ++ bbr ++ obj ++ obr ++ res ++ crc2 ++ pad
  | .hdrHoa _ _ _ ord res br crc2 pad => ord ++ res ++ br ++ crc2 ++ pad
  | .hdrRsvSbt _ _ _ sbt rest => sbt ++ rest
  | .hdrRsvProf3 _ _ _ rest => rest
  | .hdrRsvProf4to7 _ _ _ _ rest => rest

/-- The header word of an instruction: its fields in wire order, most significant bit first (spec/30_encoding.md R114). -/
def encode (i : Instr) : HeaderWord :=
  encodeFront i ++ encodeRest i

/-- An operand as its field, when the number written fits the field (spec/30_encoding.md R113: "must fit its field
width, else the statement is an assembly error"). -/
def operand (w v : Nat) : Option (BitVec w) :=
  if v < 2 ^ w then some (BitVec.ofNat w v) else none

/-- The header word a header statement assembles to, or none for an assembly error (spec/30_encoding.md R113, R114). -/
def assembleHeader : HeaderStmt → Option HeaderWord
  | .ch nn sr crc1 cfg res br crc2 pad => do
    return encode (.hdrCh (← operand 3 nn) (← operand 4 sr) (← operand 8 crc1) (← operand 7 cfg) (← operand 2 res)
      (← operand 4 br) (← operand 8 crc2) (← operand 16 pad))
  | .obj nn sr crc1 obj obr res crc2 pad => do
    return encode (.hdrObj (← operand 3 nn) (← operand 4 sr) (← operand 8 crc1) (← operand 7 obj) (← operand 4 obr)
      (← operand 2 res) (← operand 8 crc2) (← operand 14 pad))
  | .chobj nn sr crc1 cfg bbr obj obr res crc2 pad => do
    return encode (.hdrChobj (← operand 3 nn) (← operand 4 sr) (← operand 8 crc1) (← operand 7 cfg)
      (← operand 4 bbr) (← operand 7 obj) (← operand 4 obr) (← operand 2 res) (← operand 8 crc2) (← operand 3 pad))
  | .hoa nn sr crc1 ord res br crc2 pad => do
    return encode (.hdrHoa (← operand 3 nn) (← operand 4 sr) (← operand 8 crc1) (← operand 4 ord) (← operand 2 res)
      (← operand 4 br) (← operand 8 crc2) (← operand 19 pad))
  | .raw b0 b1 b2 b3 b4 b5 b6 b7 b8 => do
    return headerWordOf #v[← operand 8 b0, ← operand 8 b1, ← operand 8 b2, ← operand 8 b3, ← operand 8 b4,
      ← operand 8 b5, ← operand 8 b6, ← operand 8 b7, ← operand 8 b8]

end Sys2Proof
end

