-- ==== Sys2Proof/Machine/State.lean ====
section
/-! DEFINITION. The state of the block (spec/10_state.md R20), as plain data, and its value right after reset (R38). -/

namespace Sys2Proof.Machine

/-- The FSM state register `STATE` as an enumeration of its 24 named values (spec/10_state.md R26: "a model may use
an enumeration instead"). -/
inductive Fsm where
  | sIdle | sLen | sSync | sCodec | sAnc | sNn | sProf | sSr | sCrc1 | sDispatch
  | sACfg | sBSbt | sB0Obj | sB0Obr | sB1Cfg | sB1Bbr | sB1Obj | sB1Obr | sCOrd
  | sRes | sBr | sCrc2 | sCommit | sDone
deriving DecidableEq, Repr

/-- The thirteen decode errors (spec/60_exceptions.md R300). -/
inductive HeaderError where
  | syncMismatch | unsupportedCodec | reservedBitViolation | invalidSamplingRateIndex | invalidChannelConfig
  | invalidCodingProfile | invalidResolutionIndex | bufferExhausted | invalidSoundBedType | invalidAmbisonicOrder
  | missingBitrateTable | unmappedChannelConfig | invalidBitrateIndex
deriving DecidableEq, Repr

/-- The field register file `F` (spec/10_state.md R27): each register has exactly its field's width. -/
structure FieldRegs where
  sync : BitVec 12
  codec : BitVec 4
  anc : BitVec 1
  nn : BitVec 3
  prof : BitVec 3
  sr : BitVec 4
  cfg : BitVec 7
  sbt : BitVec 2
  bbr : BitVec 4
  obj : BitVec 7
  obr : BitVec 4
  ord : BitVec 4
  res : BitVec 2
  br : BitVec 4
deriving DecidableEq, Repr

/-- The working registers `W_*` (spec/10_state.md R29). -/
structure WorkRegs where
  rate : BitVec 32
  ctype : BitVec 3
  ch : BitVec 8
  obj : BitVec 8
  layV : Bool
  lay : BitVec 4
  order : BitVec 5
  tbl : BitVec 4
  resBits : BitVec 5
  fmt : BitVec 2
  bedBr : BitVec 32
  objBr : BitVec 32
  br : BitVec 32
deriving DecidableEq, Repr

/-- The result registers `R_*`, the DecodedHeader (spec/10_state.md R30). -/
structure ResultRegs where
  codecId : BitVec 4
  nnType : BitVec 3
  profile : BitVec 3
  srIndex : BitVec 4
  sampleRate : BitVec 32
  resIndex : BitVec 2
  resBits : BitVec 5
  sampleFmt : BitVec 2
  contentType : BitVec 3
  chCount : BitVec 8
  objCount : BitVec 8
  totalCh : BitVec 8
  layoutValid : Bool
  layoutTag : BitVec 4
  ambOrder : BitVec 5
  totalBitrate : BitVec 32
deriving DecidableEq, Repr

/-- Every `F` register 0 (spec/10_state.md R28, R38). -/
def FieldRegs.zero : FieldRegs := ⟨0, 0, 0, 0, 0, 0, 0, 0, 0, 0, 0, 0, 0, 0⟩

/-- Every `W_*` register 0 (spec/10_state.md R29, R38). -/
def WorkRegs.zero : WorkRegs := ⟨0, 0, 0, 0, false, 0, 0, 0, 0, 0, 0, 0, 0⟩

/-- Every `R_*` register 0 (spec/10_state.md R31, R38). -/
def ResultRegs.zero : ResultRegs := ⟨0, 0, 0, 0, 0, 0, 0, 0, 0, 0, 0, 0, false, 0, 0, 0⟩

/-- The values on the input ports at one rising edge of `clk` (spec/10_state.md R21). -/
structure Ports where
  rst : Bool
  start : Bool
  inData : HeaderWord
  inLen : BitVec 4
deriving DecidableEq, Repr

/-- What the outside does next: one rising edge with the port values sampled there and whether `P_STEP_CYCLES` makes
it a stall edge for the field step (spec/40_decode_and_prefix.md R142); one edge with these port values, held back
while `BUSY = 1`, as the host statement DECODE drives it; or the host statement WAIT (spec/30_encoding.md R115). The
model's own data, log 2 and 4. -/
inductive HostAction where
  | edge (p : Ports) (stall : Bool)
  | edgeWhenReady (p : Ports)
  | wait
deriving DecidableEq, Repr

/-- The state: all of spec/10_state.md R20, and two fields of the model's own, `host` and `initialised`. -/
structure State where
  /-- `IB[0..8]`, the captured input buffer (R23). -/
  ib : Vector Byte 9
  /-- `LEN`, the captured length (R23). -/
  len : BitVec 4
  /-- `STATE`, with `cur` the program counter (R24, R26). -/
  fsm : Fsm
  /-- `CUR`, the bit cursor, 0..72 (R25). -/
  cur : StreamPos
  /-- The field register file `F` (R27). -/
  f : FieldRegs
  /-- The working registers `W_*` (R29). -/
  w : WorkRegs
  /-- The result registers `R_*` (R30). -/
  r : ResultRegs
  /-- `BUSY` (R32). -/
  busy : Bool
  /-- `DONE` (R32). -/
  done : Bool
  /-- `ERR` (R32). -/
  err : Bool
  /-- `ERR_CODE` (R34). -/
  errCode : BitVec 4
  /-- `ERR_POS` (R34). -/
  errPos : StreamPos
  /-- The model's own: what the outside does at the coming edges, first first (log 2). -/
  host : List HostAction
  /-- The model's own: a reset edge has been seen since power-up (spec/70_reset_and_hazards.md R342, log 6). -/
  initialised : Bool
deriving DecidableEq, Repr

/-- Why the machine stops with a fault. -/
inductive Fault where
  /-- Raised by `fieldStep` when `BUSY = 1` and `STATE` is `S_IDLE` or `S_DONE`, which name no field step: "Only
  `S_IDLE` and `S_DONE` have `BUSY = 0`" (spec/10_state.md R26). No run from reset gets there. Safe. -/
  | noFieldStep
deriving DecidableEq, Repr

/-- Why the machine refuses. -/
inductive Refusal where
  /-- Answered by `exec` for a form without a meaning yet; none is left. Safe. -/
  | notModelled (mnemonic : String)
  /-- Answered by `clockEdge` for a start before the first reset since power-up: "requires a reset before the first
  accept" (spec/70_reset_and_hazards.md R342), treatment `refuse` of spec/93_implementation_defined.md I14. Safe. -/
  | startBeforeReset
  /-- Answered by `readThen` for a read width outside 1..32, which no field step issues: "a model refuses it"
  (spec/40_decode_and_prefix.md R143). Safe. -/
  | readWidth
deriving DecidableEq, Repr

/-- The block right after a reset edge (spec/10_state.md R38, spec/70_reset_and_hazards.md R340), with nothing placed
in the model's own `host`. -/
def State.reset : State where
  ib := #v[0, 0, 0, 0, 0, 0, 0, 0, 0]
  len := 0
  fsm := .sIdle
  cur := 0
  f := FieldRegs.zero
  w := WorkRegs.zero
  r := ResultRegs.zero
  busy := false
  done := false
  err := false
  errCode := 0
  errPos := 0
  host := []
  initialised := true

end Sys2Proof.Machine
end

