-- ==== Sys2Proof/Machine/Flags.lean ====
section
/-! DEFINITION. The status flags, the values computed from them, and what the host reads at the ports. -/

namespace Sys2Proof.Machine

/-- The flags an accept leaves: `BUSY` set, `DONE` and `ERR` cleared (spec/10_state.md R32,
spec/40_decode_and_prefix.md R140). -/
def State.flagsAtAccept (s : State) : State :=
  { s with busy := true, done := false, err := false }

/-- The flags a commit leaves: `BUSY` cleared, `DONE` set, `ERR` cleared (spec/10_state.md R32,
spec/44_tail_and_assembly.md R254). -/
def State.flagsAtCommit (s : State) : State :=
  { s with busy := false, done := true, err := false }

/-- The flags an error leaves: `BUSY` cleared, `DONE` and `ERR` set (spec/10_state.md R32, spec/60_exceptions.md R301). -/
def State.flagsAtError (s : State) : State :=
  { s with busy := false, done := true, err := true }

/-- `result_valid = DONE and not ERR` (spec/10_state.md R33). -/
def State.resultValid (s : State) : Bool :=
  s.done && !s.err

/-- The `STATUS` register: bit 0 `BUSY`, bit 1 `DONE`, bit 2 `ERR`, bit 3 `RESULT_VALID` (spec/10_state.md R35). -/
def State.status (s : State) : BitVec 4 :=
  BitVec.ofBool s.resultValid ++ BitVec.ofBool s.err ++ BitVec.ofBool s.done ++ BitVec.ofBool s.busy

/-- Every output port (spec/10_state.md R22): the flags, `result_valid`, the error registers and the result
registers, each shown at the port of its name. -/
structure Outputs where
  busy : Bool
  done : Bool
  err : Bool
  resultValid : Bool
  errCode : BitVec 4
  errPos : StreamPos
  result : ResultRegs
deriving DecidableEq, Repr

/-- What the output ports show (spec/10_state.md R22). -/
def State.outputs (s : State) : Outputs where
  busy := s.busy
  done := s.done
  err := s.err
  resultValid := s.resultValid
  errCode := s.errCode
  errPos := s.errPos
  result := s.r

/-- The register of a register number as the host reads it (spec/10_state.md R30, R35). The spec gives a host read no
width and no value above a register's own bits: that the answer is 32 bits wide, the register in its low bits and zeros
above, is the model's choice (DESIGN CHOICE, log 21). None for `COMMAND`, which is write-only, and for the unused
numbers (log 17). -/
def State.hostRead (n : Nat) (s : State) : Option (BitVec 32) :=
  match n with
  | 0 => some (s.status.setWidth 32)
  | 1 => some (s.errCode.setWidth 32)
  | 2 => some (s.errPos.setWidth 32)
  | 8 => some (s.r.codecId.setWidth 32)
  | 9 => some (s.r.nnType.setWidth 32)
  | 10 => some (s.r.profile.setWidth 32)
  | 11 => some (s.r.srIndex.setWidth 32)
  | 12 => some s.r.sampleRate
  | 13 => some (s.r.resIndex.setWidth 32)
  | 14 => some (s.r.resBits.setWidth 32)
  | 15 => some (s.r.sampleFmt.setWidth 32)
  | 16 => some (s.r.contentType.setWidth 32)
  | 17 => some (s.r.chCount.setWidth 32)
  | 18 => some (s.r.objCount.setWidth 32)
  | 19 => some (s.r.totalCh.setWidth 32)
  | 20 => some ((BitVec.ofBool s.r.layoutValid).setWidth 32)
  | 21 => some (s.r.layoutTag.setWidth 32)
  | 22 => some (s.r.ambOrder.setWidth 32)
  | 23 => some s.r.totalBitrate
  | _ => none

end Sys2Proof.Machine
end

