-- ==== Sys2Proof/Config.lean ====
section
/-! DEFINITION. What one implementation of the block fixes and the spec leaves open (spec/00_scope.md R7). -/

namespace Sys2Proof

/-- The open part of the parameter `P_NAMED_LAYOUT`: whether a configuration whose layout the source leaves
unmarked (indices 0, 7, 8, 9, 10) carries a named layout. It has no body, so a proof holds for every legal
`P_NAMED_LAYOUT` (spec/00_scope.md R7, spec/92_eei_decisions.md D6). Free value, log 5. -/
opaque Config.unmarkedNamed : Nat → Bool

end Sys2Proof
end

