-- ==== Sys2Proof/Machine/Tables.lean ====
section
/-! DEFINITION. The ConfigTables: the four constant tables of the block (spec/20_memory.md R65 to R72) and the
parameter `P_NAMED_LAYOUT`. Values in hertz and bits per second are exact numbers; the registers narrow them. -/

namespace Sys2Proof.Machine

/-- `ROM_SR`, the nine sampling rates in index order (spec/20_memory.md R66). -/
def romSr : List Nat :=
  [192000, 96000, 48000, 44100, 32000, 24000, 22050, 16000, 8000]

/-- `ROM_BR`, the bitrate tables in configuration-index order; slots 4 (10.2) and 5 (22.2) hold none
(spec/20_memory.md R67). -/
def romBr : List (Option (List Nat)) :=
  [ some [16000, 32000, 44000, 56000, 64000, 72000, 80000, 96000, 128000, 144000, 164000, 192000, 0, 0, 0, 0],
    some [24000, 32000, 48000, 64000, 80000, 96000, 128000, 144000, 192000, 256000, 320000, 0, 0, 0, 0, 0],
    some [192000, 256000, 320000, 384000, 448000, 512000, 640000, 720000, 144000, 96000, 128000, 160000, 0, 0, 0, 0],
    some [192000, 480000, 256000, 384000, 576000, 640000, 128000, 160000, 0, 0, 0, 0, 0, 0, 0, 0],
    none,
    none,
    some [48000, 96000, 128000, 192000, 256000, 0, 0, 0, 0, 0, 0, 0, 0, 0, 0, 0],
    some [152000, 320000, 480000, 576000, 0, 0, 0, 0, 0, 0, 0, 0, 0, 0, 0, 0],
    some [176000, 384000, 576000, 704000, 256000, 448000, 0, 0, 0, 0, 0, 0, 0, 0, 0, 0],
    some [216000, 480000, 576000, 384000, 768000, 0, 0, 0, 0, 0, 0, 0, 0, 0, 0, 0],
    some [240000, 608000, 384000, 512000, 832000, 0, 0, 0, 0, 0, 0, 0, 0, 0, 0, 0],
    some [48000, 96000, 128000, 192000, 256000, 0, 0, 0, 0, 0, 0, 0, 0, 0, 0, 0],
    some [192000, 256000, 320000, 384000, 480000, 512000, 640000, 0, 0, 0, 0, 0, 0, 0, 0, 0],
    some [256000, 320000, 384000, 512000, 640000, 896000, 0, 0, 0, 0, 0, 0, 0, 0, 0, 0] ]

/-- `ROM_CHMAP`, the fixed channel mapping of the channel-only branch; none where the mapping is undefined
(spec/20_memory.md R69). -/
def romChmap : List (Option Nat) :=
  [some 1, some 2, some 6, some 8, none, some 24, some 4, some 8, some 10, some 10, some 12, none, none, none]

/-- `ROM_NMC`, the named multichannel table: rows of bed name, configuration index, channel count, in table order
(spec/20_memory.md R72). The names are labels only. -/
def romNmc : List (String × Nat × Nat) :=
  [("stereo", 1, 2), ("5.1", 2, 6), ("7.1", 3, 8), ("10.2", 4, 12), ("22.2", 5, 24), ("4.0", 6, 4),
    ("5.1.2", 7, 8), ("5.1.4", 8, 10), ("7.1.2", 9, 10), ("7.1.4", 10, 12)]

/-- The sampling rate of an index below 9; the step `S_SR` rejects the others before any table read
(spec/20_memory.md R66). -/
def samplingRate (i : Nat) : Option Nat :=
  romSr[i]?

/-- Entry `i` of configuration `c`'s bitrate table; none when the configuration has no table: 10.2 and 22.2, and the
sentinel and beyond (spec/20_memory.md R67, R70; log 10). -/
def bitrateEntry (c i : Nat) : Option Nat :=
  (romBr[c]?.join).map fun t => t.getD i 0

/-- The fixed mapping's channel count of a configuration (spec/20_memory.md R69). -/
def fixedChannels (c : Nat) : Option Nat :=
  romChmap[c]?.join

/-- The first row of the named multichannel table for a configuration (spec/20_memory.md R72, `NmcLookup`): its
channel count, or none when no row matches. -/
def nmcFind (c : Nat) : List (String × Nat × Nat) → Option Nat
  | [] => none
  | (_, k, n) :: rows => if k = c then some n else nmcFind c rows

/-- `NmcLookup(c)`, none for `found = 0` (spec/20_memory.md R72). -/
def nmcLookup (c : Nat) : Option Nat :=
  nmcFind c romNmc

/-- The parameter `P_NAMED_LAYOUT`: it contains 1, 2, 3 and 5, may contain 0, 7, 8, 9 and 10, and contains no other
index (spec/00_scope.md R7). -/
def namedLayout (c : Nat) : Bool :=
  if c = 1 ∨ c = 2 ∨ c = 3 ∨ c = 5 then true
  else if c = 0 ∨ c = 7 ∨ c = 8 ∨ c = 9 ∨ c = 10 then Config.unmarkedNamed c
  else false

end Sys2Proof.Machine
end

