-- ==== Sys2Proof/Machine/Operands.lean ====
section
/-! DEFINITION. How header fields become operands (spec/30_encoding.md R107): counts, orders, configuration indices,
resolution classes, and the exact bitrate arithmetic. Every field is unsigned; nothing is sign-extended. -/

namespace Sys2Proof.Machine

/-- Object count = `zext_8(field) + 1`, 1..128 (spec/30_encoding.md R107, spec/42_profile1_object.md R203). -/
def objectCount (field : BitVec 7) : BitVec 8 :=
  field.setWidth 8 + 1

/-- Ambisonic order = `zext_5(field) + 1`, 1..16 (spec/30_encoding.md R107, spec/43_profile2_ambisonic.md R231). -/
def ambisonicOrder (field : BitVec 4) : BitVec 5 :=
  field.setWidth 5 + 1

/-- The channels of an order, `(order + 1)^2` (spec/43_profile2_ambisonic.md R231). -/
def ambisonicChannels (order : BitVec 5) : BitVec 8 :=
  BitVec.ofNat 8 ((order.toNat + 1) * (order.toNat + 1))

/-- The configuration whose table an order reads, `10 + order` (spec/43_profile2_ambisonic.md R231). -/
def ambisonicTable (order : BitVec 5) : BitVec 4 :=
  BitVec.ofNat 4 (10 + order.toNat)

/-- A configuration index below 14 as `W_TBL` and `W_LAY` hold it, 4 bits (spec/10_state.md R29). -/
def configIndex (field : BitVec 7) : BitVec 4 :=
  field.setWidth 4

/-- The resolution class of a resolution index: the bits and the sample-format code, none for the index 3
(spec/44_tail_and_assembly.md R251). -/
def resolutionClass (v : BitVec 2) : Option (BitVec 5 × BitVec 2) :=
  match v.toNat with
  | 0 => some (8, 1)
  | 1 => some (16, 2)
  | 2 => some (24, 0)
  | _ => none

/-- Total bitrate of content with objects: `bed + per-object * count`, exact, then held in 32 bits
(spec/42_profile1_object.md R205, R211, R215). -/
def objectBitrate (bed perObject : BitVec 32) (count : BitVec 8) : BitVec 32 :=
  BitVec.ofNat 32 (bed.toNat + perObject.toNat * count.toNat)

/-- The layout registers of a configuration: the valid bit, and the configuration index as tag when a layout is
present, 0 otherwise (spec/41_profile0_channel.md R182). -/
def layoutOf (present : Bool) (cfg : BitVec 7) : Bool × BitVec 4 :=
  (present, if present then configIndex cfg else 0)

/-- The content-type codes (spec/10_state.md R30). -/
def ctypeChannelOnly : BitVec 3 := 1
/-- Content type OBJECT_ONLY (spec/10_state.md R30). -/
def ctypeObjectOnly : BitVec 3 := 2
/-- Content type CHANNEL_OBJECT (spec/10_state.md R30). -/
def ctypeChannelObject : BitVec 3 := 3
/-- Content type AMBISONIC (spec/10_state.md R30). -/
def ctypeAmbisonic : BitVec 3 := 4

end Sys2Proof.Machine
end

