-- ==== Sys2Proof/Machine/Ops.lean ====
section
/-! DEFINITION. The named operations over the input buffer and the registers: reading bits, moving the program
counter, taking a decode error, accept, reset, and the bitrate lookup. -/

namespace Sys2Proof.Machine

/-- The numeric code of an error (spec/60_exceptions.md R300). -/
def HeaderError.code : HeaderError → BitVec 4
  | .syncMismatch => 1
  | .unsupportedCodec => 2
  | .reservedBitViolation => 3
  | .invalidSamplingRateIndex => 4
  | .invalidChannelConfig => 5
  | .invalidCodingProfile => 6
  | .invalidResolutionIndex => 7
  | .bufferExhausted => 8
  | .invalidSoundBedType => 9
  | .invalidAmbisonicOrder => 10
  | .missingBitrateTable => 11
  | .unmappedChannelConfig => 12
  | .invalidBitrateIndex => 13

/-- The 5-bit encoding of `STATE` (spec/10_state.md R26). -/
def Fsm.code : Fsm → BitVec 5
  | .sIdle => 0
  | .sLen => 1
  | .sSync => 2
  | .sCodec => 3
  | .sAnc => 4
  | .sNn => 5
  | .sProf => 6
  | .sSr => 7
  | .sCrc1 => 8
  | .sDispatch => 9
  | .sACfg => 10
  | .sBSbt => 11
  | .sB0Obj => 12
  | .sB0Obr => 13
  | .sB1Cfg => 14
  | .sB1Bbr => 15
  | .sB1Obj => 16
  | .sB1Obr => 17
  | .sCOrd => 18
  | .sRes => 19
  | .sBr => 20
  | .sCrc2 => 21
  | .sCommit => 22
  | .sDone => 23

/-- Stream bit `q`, that is bit `7 - (q mod 8)` of `IB[q div 8]` (spec/20_memory.md R62); false past the buffer. -/
def streamBit (ib : Vector Byte 9) (q : Nat) : Bool :=
  match ib[q / 8]? with
  | some b => b.getLsbD (7 - q % 8)
  | none => false

/-- `MemRead(p, n)` for `p + n <= 72`: the `n` stream bits from `p` on, the bit at `p` the most significant
(spec/20_memory.md R63); in header-word numbering, `HW[71-p : 72-p-n]`. -/
def memRead (ib : Vector Byte 9) (p n : Nat) : BitVec n :=
  (headerWordOf ib).slice (72 - p - n) n

/-- `state <- S_X` (spec/10_state.md R24). -/
def State.goTo (x : Fsm) (s : State) : State :=
  { s with fsm := x }

/-- `CUR <- CUR + w` (spec/40_decode_and_prefix.md R143). -/
def State.advance (w : Nat) (s : State) : State :=
  { s with cur := s.cur + BitVec.ofNat 7 w }

/-- The state with other host actions to come: the model's own `host`, no register. -/
def State.withHost (acts : List HostAction) (s : State) : State :=
  { s with host := acts }

/-- `raise Error(code, pos)`: taking a decode error. `ERR_CODE` and `ERR_POS` are saved, `ERR` and `DONE` set, `BUSY`
cleared, and control goes to `S_DONE`; every other register keeps its value (spec/60_exceptions.md R301). -/
def State.raise (e : HeaderError) (pos : StreamPos) (s : State) : State :=
  { s.flagsAtError with errCode := e.code, errPos := pos, fsm := .sDone }

/-- The part of accept that does not look at the ports: the program counter at `S_LEN` and offset 0, every `F`, `W_*`
and `R_*` register and the error registers 0, the flags as accept leaves them (spec/40_decode_and_prefix.md R140). -/
def State.beginTransaction (s : State) : State :=
  { s.flagsAtAccept with
    cur := 0, f := FieldRegs.zero, w := WorkRegs.zero, r := ResultRegs.zero, errCode := 0, errPos := 0, fsm := .sLen }

/-- Accept: capture the input, then begin the transaction (spec/40_decode_and_prefix.md R140). It is also the way back
from an error: it clears `ERR`, `ERR_CODE` and `ERR_POS` (spec/60_exceptions.md R304). -/
def State.accept (p : Ports) (s : State) : State :=
  { s with ib := p.inData.bytes, len := p.inLen }.beginTransaction

/-- An edge with `rst = 1`: every register at its reset value; what the outside does next is untouched
(spec/70_reset_and_hazards.md R340, spec/10_state.md R38). -/
def State.afterReset (s : State) : State :=
  State.reset.withHost s.host

/-- The captured bits available to the cursor, `8 * L` with `L = min(LEN, 9)` (spec/40_decode_and_prefix.md R145). -/
def State.availableBits (s : State) : Nat :=
  8 * min s.len.toNat 9

/-- `Read(w)` followed by what the step does with the value: the cursor guard, the value at `CUR`, `CUR` moved on by
`w` (spec/40_decode_and_prefix.md R143, R145). A width outside 1..32 is refused. -/
def readThen (w : Nat) (s : State) (body : BitVec w → State → State) : Host.Outcome State Fault Refusal :=
  if w = 0 ∨ 32 < w then .refused .readWidth
  else if s.availableBits < s.cur.toNat + w then .next (s.raise .bufferExhausted s.cur)
  else .next (body (memRead s.ib s.cur.toNat w) (s.advance w))

/-- `Skip(w)`: `Read(w)` with the value discarded (spec/40_decode_and_prefix.md R144). -/
def skipThen (w : Nat) (s : State) (body : State → State) : Host.Outcome State Fault Refusal :=
  readThen w s fun _ t => body t

/-- A field step of a header given by its operands: the body on the operand `v` in place of the `w` bits at `CUR`,
with `CUR` moved on by `w`; nothing when an earlier check has ended the transaction (spec/60_exceptions.md R301). -/
def takeField (w : Nat) (v : BitVec w) (body : BitVec w → State → State) (s : State) : State :=
  if s.busy then body v (s.advance w) else s

/-- A step that reads no bits, in a header given by its operands; nothing when the transaction has ended. -/
def takeStep (body : State → State) (s : State) : State :=
  if s.busy then body s else s

/-- `BitrateLookup(c, i, pos)`: MissingBitrateTable when the configuration has no table, InvalidBitrateIndex when the
entry is a zero placeholder, else the entry (spec/44_tail_and_assembly.md R250). The caller raises at its `pos`. -/
def bitrateLookup (c : Nat) (i : BitVec 4) : Except HeaderError (BitVec 32) :=
  match bitrateEntry c i.toNat with
  | none => .error .missingBitrateTable
  | some v => if v = 0 then .error .invalidBitrateIndex else .ok (BitVec.ofNat 32 v)

end Sys2Proof.Machine
end

