-- ==== Sys2Proof/Machine/Prefix.lean ====
section
/-! DEFINITION. The field steps of the common prefix, each as what it does with the value it has read
(spec/40_decode_and_prefix.md R146 to R154). -/

namespace Sys2Proof.Machine

/-- `S_LEN` (R146): fewer than nine bytes fail before any bit is read. -/
def lenStep (s : State) : State :=
  if min s.len.toNat 9 < 9 then s.raise .bufferExhausted 0 else s.goTo .sSync

/-- `S_SYNC` (R147). -/
def syncBody (v : BitVec 12) (s : State) : State :=
  let s := { s with f.sync := v }
  if v ≠ 0xFFF#12 then s.raise .syncMismatch 0 else s.goTo .sCodec

/-- `S_CODEC` (R148). -/
def codecBody (v : BitVec 4) (s : State) : State :=
  let s := { s with f.codec := v }
  if v ≠ 2#4 then s.raise .unsupportedCodec 12 else s.goTo .sAnc

/-- `S_ANC` (R149). -/
def ancBody (v : BitVec 1) (s : State) : State :=
  let s := { s with f.anc := v }
  if v ≠ 0#1 then s.raise .reservedBitViolation 16 else s.goTo .sNn

/-- `S_NN` (R150). -/
def nnBody (v : BitVec 3) (s : State) : State :=
  { s with f.nn := v }.goTo .sProf

/-- `S_PROF` (R151): stored here, checked at `S_DISPATCH`. -/
def profBody (v : BitVec 3) (s : State) : State :=
  { s with f.prof := v }.goTo .sSr

/-- `S_SR` (R152). -/
def srBody (v : BitVec 4) (s : State) : State :=
  let s := { s with f.sr := v }
  match samplingRate v.toNat with
  | none => s.raise .invalidSamplingRateIndex 23
  | some rate => { s with w.rate := BitVec.ofNat 32 rate }.goTo .sCrc1

/-- `S_CRC1` after its skip (R153). -/
def crc1Body (s : State) : State :=
  s.goTo .sDispatch

/-- `S_DISPATCH` (R154): the branch on the coding profile. -/
def dispatchStep (s : State) : State :=
  match s.f.prof.toNat with
  | 0 => s.goTo .sACfg
  | 1 => s.goTo .sBSbt
  | 2 => s.goTo .sCOrd
  | _ => s.raise .invalidCodingProfile 20

/-- The prefix of a header given by its operands, from the beginning of its transaction: `S_LEN` to `S_DISPATCH`
(R157), with sync 0xFFF, codec_id 2 and ancillary_flag 0 as every form has them. -/
def runPrefix (nn prof : BitVec 3) (sr : BitVec 4) (crc1 : Byte) (s : State) : State :=
  let s := takeStep lenStep s.beginTransaction
  let s := takeField 12 0xFFF#12 syncBody s
  let s := takeField 4 2#4 codecBody s
  let s := takeField 1 0#1 ancBody s
  let s := takeField 3 nn nnBody s
  let s := takeField 3 prof profBody s
  let s := takeField 4 sr srBody s
  let s := takeField 8 crc1 (fun _ => crc1Body) s
  takeStep dispatchStep s

end Sys2Proof.Machine
end

