-- ==== Sys2Proof/Machine/Tail.lean ====
section
/-! DEFINITION. The common tail: resolution, total bitrate, second CRC byte, and the assembly of the result
(spec/44_tail_and_assembly.md R251 to R254). -/

namespace Sys2Proof.Machine

/-- `S_RES` (R251), the field begun at offset `p0`. Profile 1 has no bitrate index (spec/42_profile1_object.md R200). -/
def resBody (p0 : StreamPos) (v : BitVec 2) (s : State) : State :=
  let s := { s with f.res := v }
  match resolutionClass v with
  | none => s.raise .invalidResolutionIndex p0
  | some (bits, fmt) =>
    let s := { s with w.resBits := bits, w.fmt := fmt }
    if s.f.prof = 1#3 then s.goTo .sCrc2 else s.goTo .sBr

/-- `S_BR` (R252), the field begun at offset `p0`. -/
def brBody (p0 : StreamPos) (v : BitVec 4) (s : State) : State :=
  let s := { s with f.br := v }
  match bitrateLookup s.w.tbl.toNat v with
  | .error e => s.raise e p0
  | .ok b => { s with w.br := b }.goTo .sCrc2

/-- `S_CRC2` after its skip (R253). -/
def crc2Body (s : State) : State :=
  s.goTo .sCommit

/-- `S_COMMIT` (R254): every result register is loaded and the transaction ends successfully. -/
def commitStep (s : State) : State :=
  { s.flagsAtCommit with
    r := {
      codecId := s.f.codec
      nnType := s.f.nn
      profile := s.f.prof
      srIndex := s.f.sr
      sampleRate := s.w.rate
      resIndex := s.f.res
      resBits := s.w.resBits
      sampleFmt := s.w.fmt
      contentType := s.w.ctype
      chCount := s.w.ch
      objCount := s.w.obj
      totalCh := s.w.ch + s.w.obj
      layoutValid := s.w.layV
      layoutTag := s.w.lay
      ambOrder := s.w.order
      totalBitrate := s.w.br }
    fsm := .sDone }

/-- The last two steps of a header given by its operands: `S_CRC2` and `S_COMMIT`. -/
def runEnd (crc2 : Byte) (s : State) : State :=
  takeStep commitStep (takeField 8 crc2 (fun _ => crc2Body) s)

end Sys2Proof.Machine
end

