-- ==== Sys2Proof/Machine/Profile0.lean ====
section
/-! DEFINITION. Profile 0, direct channel content: the branch step and the form HDR.CH
(spec/41_profile0_channel.md R180 to R182). -/

namespace Sys2Proof.Machine

/-- `S_A_CFG` (R181). -/
def aCfgBody (v : BitVec 7) (s : State) : State :=
  let s := { s with f.cfg := v }
  if 14 ≤ v.toNat then s.raise .invalidChannelConfig 35
  else
    match fixedChannels v.toNat with
    | none => s.raise .unmappedChannelConfig 35
    | some n =>
      let lay := layoutOf (namedLayout v.toNat) v
      { s with
        w.ch := BitVec.ofNat 8 n, w.layV := lay.1, w.lay := lay.2, w.tbl := configIndex v,
        w.ctype := ctypeChannelOnly }.goTo .sRes

/-- HDR.CH: the whole transaction of the header, from the beginning of the transaction to `S_DONE`, in the step
sequence of R180. crc1, crc2 and the bits after the last field change nothing (spec/30_encoding.md R111). -/
def execHdrCh (nn : BitVec 3) (sr : BitVec 4) (crc1 : Byte) (cfg : BitVec 7) (res : BitVec 2) (br : BitVec 4)
    (crc2 : Byte) (_pad : BitVec 16) (s : State) : Host.Outcome State Fault Refusal :=
  let s := runPrefix nn 0#3 sr crc1 s
  let s := takeField 7 cfg aCfgBody s
  let s := takeField 2 res (resBody 42) s
  let s := takeField 4 br (brBody 44) s
  .next (runEnd crc2 s)

end Sys2Proof.Machine
end

