-- ==== Sys2Proof/Machine/Profile1.lean ====
section
/-! DEFINITION. Profile 1, object-based content: the branch steps and the forms HDR.OBJ, HDR.CHOBJ, HDR.RSV.SBT
(spec/42_profile1_object.md R200 to R215). -/

namespace Sys2Proof.Machine

/-- `S_B_SBT` (R201): the branch on the sound-bed type. -/
def sbtBody (v : BitVec 2) (s : State) : State :=
  let s := { s with f.sbt := v }
  match v.toNat with
  | 0 => s.goTo .sB0Obj
  | 1 => s.goTo .sB1Cfg
  | _ => s.raise .invalidSoundBedType 35

/-- `S_B0_OBJ` (R204). -/
def b0ObjBody (v : BitVec 7) (s : State) : State :=
  { s with f.obj := v, w.obj := objectCount v }.goTo .sB0Obr

/-- `S_B0_OBR` (R205): the mono table, and the total bitrate of object-only content. -/
def b0ObrBody (v : BitVec 4) (s : State) : State :=
  let s := { s with f.obr := v }
  match bitrateLookup 0 v with
  | .error e => s.raise e 44
  | .ok b =>
    { s with
      w.objBr := b, w.br := objectBitrate 0 b s.w.obj, w.ch := 0, w.ctype := ctypeObjectOnly }.goTo .sRes

/-- `S_B1_CFG` (R208): only the range is checked. -/
def b1CfgBody (v : BitVec 7) (s : State) : State :=
  let s := { s with f.cfg := v }
  if 14 ≤ v.toNat then s.raise .invalidChannelConfig 37 else s.goTo .sB1Bbr

/-- `S_B1_BBR` (R209): the bed configuration's table. -/
def b1BbrBody (v : BitVec 4) (s : State) : State :=
  let s := { s with f.bbr := v }
  match bitrateLookup s.f.cfg.toNat v with
  | .error e => s.raise e 44
  | .ok b => { s with w.bedBr := b }.goTo .sB1Obj

/-- `S_B1_OBJ` (R210). -/
def b1ObjBody (v : BitVec 7) (s : State) : State :=
  { s with f.obj := v, w.obj := objectCount v }.goTo .sB1Obr

/-- `S_B1_OBR` (R211, R212): the mono table, then the bed's channel count and layout from the named multichannel
table, then the total bitrate. A bed without a row has 0 channels and no layout. -/
def b1ObrBody (v : BitVec 4) (s : State) : State :=
  let s := { s with f.obr := v }
  match bitrateLookup 0 v with
  | .error e => s.raise e 55
  | .ok b =>
    let row := nmcLookup s.f.cfg.toNat
    let lay := layoutOf (row.isSome && namedLayout s.f.cfg.toNat) s.f.cfg
    { s with
      w.objBr := b, w.ch := BitVec.ofNat 8 (row.getD 0), w.layV := lay.1, w.lay := lay.2,
      w.br := objectBitrate s.w.bedBr b s.w.obj, w.ctype := ctypeChannelObject }.goTo .sRes

/-- HDR.OBJ: the whole transaction in the step sequence of R202. -/
def execHdrObj (nn : BitVec 3) (sr : BitVec 4) (crc1 : Byte) (obj : BitVec 7) (obr : BitVec 4) (res : BitVec 2)
    (crc2 : Byte) (_pad : BitVec 14) (s : State) : Host.Outcome State Fault Refusal :=
  let s := runPrefix nn 1#3 sr crc1 s
  let s := takeField 2 0#2 sbtBody s
  let s := takeField 7 obj b0ObjBody s
  let s := takeField 4 obr b0ObrBody s
  let s := takeField 2 res (resBody 48) s
  .next (runEnd crc2 s)

/-- HDR.CHOBJ: the whole transaction in the step sequence of R206. -/
def execHdrChobj (nn : BitVec 3) (sr : BitVec 4) (crc1 : Byte) (cfg : BitVec 7) (bbr : BitVec 4) (obj : BitVec 7)
    (obr : BitVec 4) (res : BitVec 2) (crc2 : Byte) (_pad : BitVec 3) (s : State) :
    Host.Outcome State Fault Refusal :=
  let s := runPrefix nn 1#3 sr crc1 s
  let s := takeField 2 1#2 sbtBody s
  let s := takeField 7 cfg b1CfgBody s
  let s := takeField 4 bbr b1BbrBody s
  let s := takeField 7 obj b1ObjBody s
  let s := takeField 4 obr b1ObrBody s
  let s := takeField 2 res (resBody 59) s
  .next (runEnd crc2 s)

/-- HDR.RSV.SBT: the prefix, then `S_B_SBT`, which takes InvalidSoundBedType at 35 for the selectors 2 and 3 (R213).
A term that is not well formed (selector 0 or 1) is no header of this form; its transaction is left where `S_B_SBT`
leaves it. -/
def execHdrRsvSbt (nn : BitVec 3) (sr : BitVec 4) (crc1 : Byte) (sbt : BitVec 2) (_rest : BitVec 35) (s : State) :
    Host.Outcome State Fault Refusal :=
  .next (takeField 2 sbt sbtBody (runPrefix nn 1#3 sr crc1 s))

end Sys2Proof.Machine
end

