-- ==== Sys2Proof/Machine/Profile2.lean ====
section
/-! DEFINITION. Profile 2, ambisonic content: the branch step and the form HDR.HOA
(spec/43_profile2_ambisonic.md R230 to R232). -/

namespace Sys2Proof.Machine

/-- `S_C_ORD` (R231). -/
def ordBody (v : BitVec 4) (s : State) : State :=
  let s := { s with f.ord := v }
  let o := ambisonicOrder v
  if o = 1#5 ∨ o = 2#5 ∨ o = 3#5 then
    { s with
      w.order := o, w.ch := ambisonicChannels o, w.tbl := ambisonicTable o, w.ctype := ctypeAmbisonic }.goTo .sRes
  else s.raise .invalidAmbisonicOrder 35

/-- HDR.HOA: the whole transaction in the step sequence of R230. -/
def execHdrHoa (nn : BitVec 3) (sr : BitVec 4) (crc1 : Byte) (ord : BitVec 4) (res : BitVec 2) (br : BitVec 4)
    (crc2 : Byte) (_pad : BitVec 19) (s : State) : Host.Outcome State Fault Refusal :=
  let s := runPrefix nn 2#3 sr crc1 s
  let s := takeField 4 ord ordBody s
  let s := takeField 2 res (resBody 39) s
  let s := takeField 4 br (brBody 41) s
  .next (runEnd crc2 s)

end Sys2Proof.Machine
end

