-- ==== Sys2Proof/Machine/Reserved.lean ====
section
/-! DEFINITION. The reserved coding profiles: the forms HDR.RSV.PROF3 and HDR.RSV.PROF4_7
(spec/40_decode_and_prefix.md R155, R156). -/

namespace Sys2Proof.Machine

/-- HDR.RSV.PROF3: the prefix, whose `S_DISPATCH` takes InvalidCodingProfile at 20 (R155). -/
def execHdrRsvProf3 (nn : BitVec 3) (sr : BitVec 4) (crc1 : Byte) (_rest : BitVec 37) (s : State) :
    Host.Outcome State Fault Refusal :=
  .next (runPrefix nn 3#3 sr crc1 s)

/-- HDR.RSV.PROF4_7: the same for the coding profiles 4 to 7 (R156). A term that is not well formed (a profile below
4) is no header of this form; its transaction is left where `S_DISPATCH` leaves it. -/
def execHdrRsvProf4to7 (nn prof : BitVec 3) (sr : BitVec 4) (crc1 : Byte) (_rest : BitVec 37) (s : State) :
    Host.Outcome State Fault Refusal :=
  .next (runPrefix nn prof sr crc1 s)

end Sys2Proof.Machine
end

