-- ==== Sys2Proof/Machine/Fsm.lean ====
section
/-! DEFINITION. The decode FSM clock edge by clock edge: the field step `STATE` names, and what one rising edge of
`clk` does (spec/40_decode_and_prefix.md R140 to R142, R158, spec/70_reset_and_hazards.md R340, R341). -/

namespace Sys2Proof.Machine

/-- The field step named by `STATE`, reading its field from the captured buffer at `CUR` (spec/10_state.md R24, R26). -/
def fieldStep (s : State) : Host.Outcome State Fault Refusal :=
  match s.fsm with
  | .sIdle => .fault .noFieldStep
  | .sLen => .next (lenStep s)
  | .sSync => readThen 12 s syncBody
  | .sCodec => readThen 4 s codecBody
  | .sAnc => readThen 1 s ancBody
  | .sNn => readThen 3 s nnBody
  | .sProf => readThen 3 s profBody
  | .sSr => readThen 4 s srBody
  | .sCrc1 => skipThen 8 s crc1Body
  | .sDispatch => .next (dispatchStep s)
  | .sACfg => readThen 7 s aCfgBody
  | .sBSbt => readThen 2 s sbtBody
  | .sB0Obj => readThen 7 s b0ObjBody
  | .sB0Obr => readThen 4 s b0ObrBody
  | .sB1Cfg => readThen 7 s b1CfgBody
  | .sB1Bbr => readThen 4 s b1BbrBody
  | .sB1Obj => readThen 7 s b1ObjBody
  | .sB1Obr => readThen 4 s b1ObrBody
  | .sCOrd => readThen 4 s ordBody
  | .sRes => readThen 2 s (resBody s.cur)
  | .sBr => readThen 4 s (brBody s.cur)
  | .sCrc2 => skipThen 8 s crc2Body
  | .sCommit => .next (commitStep s)
  | .sDone => .fault .noFieldStep

/-- One rising edge of `clk`. Reset wins over everything (R340); a busy block stalls or performs its field step and
does not look at `start` (R141, R142); an idle block with `start = 1` accepts (R140), and refuses to before the first
reset (R342); else nothing changes (R158). -/
def clockEdge (p : Ports) (stall : Bool) (s : State) : Host.Outcome State Fault Refusal :=
  if p.rst then .next s.afterReset
  else if s.busy then
    if stall then .next s else fieldStep s
  else if p.start then
    if s.initialised then .next (s.accept p) else .refused .startBeforeReset
  else .next s

/-- At most `n` field steps without a stall, until `BUSY = 0` (spec/40_decode_and_prefix.md R157). -/
def runSteps : Nat → State → Host.Outcome State Fault Refusal
  | 0, s => .next s
  | n + 1, s =>
    if s.busy then
      match fieldStep s with
      | .next t => runSteps n t
      | .fault e => .fault e
      | .refused e => .refused e
    else .next s

/-- The rest of the running transaction, field step by field step: at most 17 of them (spec/40_decode_and_prefix.md
R157). -/
def finishTransaction (s : State) : Host.Outcome State Fault Refusal :=
  runSteps 17 s

/-- Whether a transaction has just been accepted and no field step performed: the state accept leaves, whatever the
captured input (spec/40_decode_and_prefix.md R140). -/
def State.atHeader (s : State) : Bool :=
  decide (s = s.beginTransaction)

end Sys2Proof.Machine
end

