-- ==== Sys2Proof/Machine/Dispatch.lean ====
section
/-! DEFINITION. One arm per constructor of Instr, each a direct call of its meaning. -/

namespace Sys2Proof.Machine

def exec (i : Instr) (s : State) : Host.Outcome State Fault Refusal :=
  match i with
  | .hdrCh nn sr crc1 cfg res br crc2 pad => Sys2Proof.Machine.execHdrCh nn sr crc1 cfg res br crc2 pad s
  | .hdrObj nn sr crc1 obj obr res crc2 pad => Sys2Proof.Machine.execHdrObj nn sr crc1 obj obr res crc2 pad s
  | .hdrChobj nn sr crc1 cfg bbr obj obr res crc2 pad => Sys2Proof.Machine.execHdrChobj nn sr crc1 cfg bbr obj obr res crc2 pad s
  | .hdrHoa nn sr crc1 ord res br crc2 pad => Sys2Proof.Machine.execHdrHoa nn sr crc1 ord res br crc2 pad s
  | .hdrRsvSbt nn sr crc1 sbt rest => Sys2Proof.Machine.execHdrRsvSbt nn sr crc1 sbt rest s
  | .hdrRsvProf3 nn sr crc1 rest => Sys2Proof.Machine.execHdrRsvProf3 nn sr crc1 rest s
  | .hdrRsvProf4to7 nn prof sr crc1 rest => Sys2Proof.Machine.execHdrRsvProf4to7 nn prof sr crc1 rest s

end Sys2Proof.Machine
end

