-- ==== Sys2Proof/Machine/Transaction.lean ====
section
/-! DEFINITION. Running the captured header's transaction to its end while the host holds `start = 0`. -/

namespace Sys2Proof.Machine

/-- The whole transaction of the captured header, when none of its field steps has been performed: the meaning of the
form the header has, and for a header of no form (a wrong sync, codec or ancillary flag) its field steps, which take
the prefix error (spec/30_encoding.md R108, spec/40_decode_and_prefix.md R147 to R149). -/
def fetchAndExec (s : State) : Host.Outcome State Fault Refusal :=
  match decodeBytes s.ib.toList with
  | .form i => exec i s
  | .reject _ => finishTransaction s

/-- WAIT: `start = 0` until the transaction is over (spec/30_encoding.md R115). A transaction that has begun no field
step runs as the meaning of its header; one that is under way goes on field step by field step; a block that is not
busy holds (spec/40_decode_and_prefix.md R158). -/
def waitDone (s : State) : Host.Outcome State Fault Refusal :=
  if s.busy then
    if s.atHeader then fetchAndExec s else finishTransaction s
  else .next s

end Sys2Proof.Machine
end

