-- ==== Sys2Proof/Machine/Step.lean ====
section
/-! DEFINITION. One step of the machine, and placing an instruction where the next step fetches it. -/

namespace Sys2Proof.Machine

/-- One step. The next action of the outside is one clock edge, or WAIT (spec/30_encoding.md R115), and it is used up
by the step. An edge of DECODE is held back while `BUSY = 1`: the step then runs the running transaction to its end. A
WAIT in `S_IDLE` waits on, since `DONE` never rises there. With no action left the ports stay idle
(`rst = 0`, `start = 0`), and the step runs a running transaction to its end (log 1, 2). -/
def step (s : State) : Host.Outcome State Fault Refusal :=
  match s.host with
  | .edge p stall :: rest => clockEdge p stall (s.withHost rest)
  | .edgeWhenReady p :: rest => if s.busy then waitDone s else clockEdge p false (s.withHost rest)
  | .wait :: rest => if s.busy || s.done then waitDone (s.withHost rest) else .next s
  | [] => waitDone s

/-- `s` with the header `w` captured as an accept captures it, all nine bytes available, and WAIT as the next host
action, so that the next step runs the header's whole transaction (log 3). -/
def State.withFetchWord (s : State) (nbits w : Nat) : State :=
  (s.accept { rst := false, start := true, inData := tableWord nbits w, inLen := 9 }).withHost (.wait :: s.host)

end Sys2Proof.Machine
end

