-- ==== Sys2Proof/Machine/Program.lean ====
section
/-! DEFINITION. Host programs: the host statements RESET, DECODE and WAIT as host actions (spec/30_encoding.md R115). -/

namespace Sys2Proof.Machine

/-- RESET holds `rst = 1` for one cycle; DECODE drives the header's bytes, the length and `start = 1` for one cycle,
once `BUSY = 0` (spec/95_test_vectors.md program 4: "`DECODE` waits for `BUSY = 0`");
WAIT is WAIT. None for an assembly error or a length that `in_len` cannot carry (spec/30_encoding.md R113, R115). -/
def hostAction : HostStmt → Option HostAction
  | .reset => some (.edge { rst := true, start := false, inData := 0, inLen := 0 } false)
  | .decode h len => do
    return .edgeWhenReady { rst := false, start := true, inData := ← assembleHeader h, inLen := ← operand 4 len }
  | .wait => some .wait

/-- A host program as host actions, none when one of its statements is an assembly error. -/
def hostProgram : List HostStmt → Option (List HostAction)
  | [] => some []
  | h :: hs => do return (← hostAction h) :: (← hostProgram hs)

/-- The state with a host program to come after the actions already there. -/
def State.withProgram (acts : List HostAction) (s : State) : State :=
  s.withHost (s.host ++ acts)

end Sys2Proof.Machine
end

