-- ==== Sys2Proof/Safety.lean ====
section
/-! DEFINITION. What claims about runs are stated in: runs of clock edges, the legal results, and the invariant of the
block's states. -/

namespace Sys2Proof

/-- The number of field steps of a form's sequence (spec/40_decode_and_prefix.md R157). -/
def Instr.steps : Instr → Nat
  | .hdrCh _ _ _ _ _ _ _ _ => 14
  | .hdrObj _ _ _ _ _ _ _ _ => 15
  | .hdrChobj _ _ _ _ _ _ _ _ _ _ => 17
  | .hdrHoa _ _ _ _ _ _ _ _ => 14
  | .hdrRsvSbt _ _ _ _ _ => 10
  | .hdrRsvProf3 _ _ _ _ => 9
  | .hdrRsvProf4to7 _ _ _ _ _ => 9

/-- The header with every bit whose value the decode ignores at 0: the CRC bytes and the bits after the last field
(spec/30_encoding.md R111, spec/20_memory.md R61). -/
def Instr.eraseIgnored : Instr → Instr
  | .hdrCh nn sr _ cfg res br _ _ => .hdrCh nn sr 0 cfg res br 0 0
  | .hdrObj nn sr _ obj obr res _ _ => .hdrObj nn sr 0 obj obr res 0 0
  | .hdrChobj nn sr _ cfg bbr obj obr res _ _ => .hdrChobj nn sr 0 cfg bbr obj obr res 0 0
  | .hdrHoa nn sr _ ord res br _ _ => .hdrHoa nn sr 0 ord res br 0 0
  | .hdrRsvSbt nn sr _ sbt _ => .hdrRsvSbt nn sr 0 sbt 0
  | .hdrRsvProf3 nn sr _ _ => .hdrRsvProf3 nn sr 0 0
  | .hdrRsvProf4to7 nn prof sr _ _ => .hdrRsvProf4to7 nn prof sr 0 0

end Sys2Proof

namespace Sys2Proof.Machine

/-- Clock edges applied, first first, while the block is busy; what comes after the transaction is not applied. -/
def edgesWhileBusy : List (Ports × Bool) → State → Host.Outcome State Fault Refusal
  | [], s => .next s
  | (p, stall) :: es, s =>
    if s.busy then
      match clockEdge p stall s with
      | .next t => edgesWhileBusy es t
      | .fault e => .fault e
      | .refused e => .refused e
    else .next s

/-- How many bits the field step of a `STATE` value reads or skips (spec/10_state.md R26). -/
def Fsm.width : Fsm → Nat
  | .sSync => 12
  | .sCodec => 4
  | .sAnc => 1
  | .sNn => 3
  | .sProf => 3
  | .sSr => 4
  | .sCrc1 => 8
  | .sACfg => 7
  | .sBSbt => 2
  | .sB0Obj => 7
  | .sB0Obr => 4
  | .sB1Cfg => 7
  | .sB1Bbr => 4
  | .sB1Obj => 7
  | .sB1Obr => 4
  | .sCOrd => 4
  | .sRes => 2
  | .sBr => 4
  | .sCrc2 => 8
  | .sIdle => 0
  | .sLen => 0
  | .sDispatch => 0
  | .sCommit => 0
  | .sDone => 0

/-- A transaction has ended in the error of this code and offset: `DONE` and `ERR` set, `BUSY` cleared, `STATE` at
`S_DONE`, and every result register 0 (spec/60_exceptions.md R301, R303). -/
def State.Failed (t : State) (code : BitVec 4) (pos : StreamPos) : Prop :=
  t.fsm = .sDone ∧ t.busy = false ∧ t.done = true ∧ t.err = true ∧ t.errCode = code ∧ t.errPos = pos ∧
    t.r = ResultRegs.zero

/-- A transaction has ended in a success: `result_valid` is 1 and no error is recorded (spec/10_state.md R33, R34). -/
def State.Succeeded (t : State) : Prop :=
  t.fsm = .sDone ∧ t.busy = false ∧ t.resultValid = true ∧ t.errCode = 0 ∧ t.errPos = 0

/-- The rows of spec/10_state.md R37: what the channel, object, layout and order registers may hold by content type. -/
def ResultRegs.ContentLegal (r : ResultRegs) : Prop :=
  (r.contentType = 1 ∧ r.chCount.toNat ∈ [1, 2, 4, 6, 8, 10, 12] ∧ r.objCount = 0 ∧ r.ambOrder = 0) ∨
  (r.contentType = 2 ∧ r.chCount = 0 ∧ 1 ≤ r.objCount.toNat ∧ r.objCount.toNat ≤ 128 ∧
    r.layoutValid = false ∧ r.layoutTag = 0 ∧ r.ambOrder = 0) ∨
  (r.contentType = 3 ∧ r.chCount.toNat ∈ [0, 2, 4, 6, 8, 10, 12] ∧ 1 ≤ r.objCount.toNat ∧ r.objCount.toNat ≤ 128 ∧
    r.ambOrder = 0) ∨
  (r.contentType = 4 ∧ r.chCount.toNat ∈ [4, 9, 16] ∧ r.objCount = 0 ∧ r.layoutValid = false ∧ r.layoutTag = 0 ∧
    1 ≤ r.ambOrder.toNat ∧ r.ambOrder.toNat ≤ 3)

/-- The legal values of the result registers after a successful decode (spec/10_state.md R30, R36, R37). -/
structure ResultRegs.Legal (r : ResultRegs) : Prop where
  codec : r.codecId = 2
  profile : r.profile.toNat ≤ 2
  srIndex : r.srIndex.toNat < 9
  sampleRate : samplingRate r.srIndex.toNat = some r.sampleRate.toNat
  resolution : resolutionClass r.resIndex = some (r.resBits, r.sampleFmt)
  content : r.ContentLegal
  total : r.totalCh.toNat = r.chCount.toNat + r.objCount.toNat
  totalRange : 1 ≤ r.totalCh.toNat ∧ r.totalCh.toNat ≤ 140
  layoutTag : r.layoutValid = false → r.layoutTag = 0
  bitrate : 16000 ≤ r.totalBitrate.toNat ∧ r.totalBitrate.toNat ≤ 25472000

/-- What the working registers hold once a branch's steps are done, by branch: what `S_A_CFG`, `S_B0_OBR`, `S_B1_OBR`
and `S_C_ORD` leave for the tail. -/
def State.BranchDone (s : State) : Prop :=
  (s.f.prof = 0 ∧ s.w.ctype = 1 ∧ s.w.tbl.toNat < 14 ∧ fixedChannels s.w.tbl.toNat = some s.w.ch.toNat ∧
    s.w.obj = 0 ∧ s.w.order = 0 ∧ (s.w.layV = false → s.w.lay = 0)) ∨
  (s.f.prof = 1 ∧ s.w.ctype = 2 ∧ s.w.ch = 0 ∧ 1 ≤ s.w.obj.toNat ∧ s.w.obj.toNat ≤ 128 ∧ s.w.layV = false ∧
    s.w.lay = 0 ∧ s.w.order = 0 ∧ 16000 ≤ s.w.br.toNat ∧ s.w.br.toNat ≤ 25472000) ∨
  (s.f.prof = 1 ∧ s.w.ctype = 3 ∧ s.w.ch.toNat ∈ [0, 2, 4, 6, 8, 10, 12] ∧ 1 ≤ s.w.obj.toNat ∧
    s.w.obj.toNat ≤ 128 ∧ (s.w.layV = false → s.w.lay = 0) ∧ s.w.order = 0 ∧ 16000 ≤ s.w.br.toNat ∧
    s.w.br.toNat ≤ 25472000) ∨
  (s.f.prof = 2 ∧ s.w.ctype = 4 ∧ 1 ≤ s.w.order.toNat ∧ s.w.order.toNat ≤ 3 ∧
    s.w.tbl.toNat = 10 + s.w.order.toNat ∧ s.w.ch.toNat ∈ [4, 9, 16] ∧ s.w.obj = 0 ∧ s.w.layV = false ∧ s.w.lay = 0)

/-- What `S_RES` leaves: a legal resolution (spec/44_tail_and_assembly.md R251). -/
def State.ResolutionDone (s : State) : Prop :=
  resolutionClass s.f.res = some (s.w.resBits, s.w.fmt)

/-- What `S_BR` leaves, or the branch of profile 1: a total bitrate in range (spec/10_state.md R30), from a
configuration that has a table. -/
def State.BitrateDone (s : State) : Prop :=
  16000 ≤ s.w.br.toNat ∧ s.w.br.toNat ≤ 25472000 ∧ (s.w.ctype = 1 → s.w.tbl.toNat ≠ 5)

/-- What the prefix leaves once `S_SR` is done: codec 2 and a resolved sampling rate. -/
def State.RateDone (s : State) : Prop :=
  s.f.codec = 2 ∧ s.f.sr.toNat < 9 ∧ samplingRate s.f.sr.toNat = some s.w.rate.toNat

/-- Where the cursor stands in a common step, by content type: the four offsets of a tail field
(spec/30_encoding.md R102 to R105). -/
def State.TailAt (s : State) (ch obj chobj hoa : Nat) : Prop :=
  (s.w.ctype = 1 → s.cur.toNat = ch) ∧ (s.w.ctype = 2 → s.cur.toNat = obj) ∧
    (s.w.ctype = 3 → s.cur.toNat = chobj) ∧ (s.w.ctype = 4 → s.cur.toNat = hoa)

/-- The working registers before the branch steps: only the sampling rate is written. -/
def State.OnlyRate (s : State) : Prop :=
  s.w = { WorkRegs.zero with rate := s.w.rate }

/-- What holds of `CUR`, `F` and `W_*` while the FSM is about to perform the step that `STATE` names. -/
def State.Stage (s : State) : Prop :=
  match s.fsm with
  | .sIdle => s.cur.toNat = 0
  | .sLen => s.cur.toNat = 0 ∧ s.w = WorkRegs.zero
  | .sSync => s.cur.toNat = 0 ∧ 9 ≤ s.len.toNat ∧ s.w = WorkRegs.zero
  | .sCodec => s.cur.toNat = 12 ∧ 9 ≤ s.len.toNat ∧ s.w = WorkRegs.zero
  | .sAnc => s.cur.toNat = 16 ∧ 9 ≤ s.len.toNat ∧ s.w = WorkRegs.zero ∧ s.f.codec = 2
  | .sNn => s.cur.toNat = 17 ∧ 9 ≤ s.len.toNat ∧ s.w = WorkRegs.zero ∧ s.f.codec = 2
  | .sProf => s.cur.toNat = 20 ∧ 9 ≤ s.len.toNat ∧ s.w = WorkRegs.zero ∧ s.f.codec = 2
  | .sSr => s.cur.toNat = 23 ∧ 9 ≤ s.len.toNat ∧ s.w = WorkRegs.zero ∧ s.f.codec = 2
  | .sCrc1 => s.cur.toNat = 27 ∧ 9 ≤ s.len.toNat ∧ s.OnlyRate ∧ s.RateDone
  | .sDispatch => s.cur.toNat = 35 ∧ 9 ≤ s.len.toNat ∧ s.OnlyRate ∧ s.RateDone
  | .sACfg => s.cur.toNat = 35 ∧ 9 ≤ s.len.toNat ∧ s.OnlyRate ∧ s.RateDone ∧ s.f.prof = 0
  | .sBSbt => s.cur.toNat = 35 ∧ 9 ≤ s.len.toNat ∧ s.OnlyRate ∧ s.RateDone ∧ s.f.prof = 1
  | .sCOrd => s.cur.toNat = 35 ∧ 9 ≤ s.len.toNat ∧ s.OnlyRate ∧ s.RateDone ∧ s.f.prof = 2
  | .sB0Obj => s.cur.toNat = 37 ∧ 9 ≤ s.len.toNat ∧ s.OnlyRate ∧ s.RateDone ∧ s.f.prof = 1
  | .sB0Obr => s.cur.toNat = 44 ∧ 9 ≤ s.len.toNat ∧ s.RateDone ∧ s.f.prof = 1 ∧
      s.w = { WorkRegs.zero with rate := s.w.rate, obj := objectCount s.f.obj }
  | .sB1Cfg => s.cur.toNat = 37 ∧ 9 ≤ s.len.toNat ∧ s.OnlyRate ∧ s.RateDone ∧ s.f.prof = 1
  | .sB1Bbr => s.cur.toNat = 44 ∧ 9 ≤ s.len.toNat ∧ s.OnlyRate ∧ s.RateDone ∧ s.f.prof = 1 ∧ s.f.cfg.toNat < 14
  | .sB1Obj => s.cur.toNat = 48 ∧ 9 ≤ s.len.toNat ∧ s.RateDone ∧ s.f.prof = 1 ∧ s.f.cfg.toNat < 14 ∧
      bitrateEntry s.f.cfg.toNat s.f.bbr.toNat = some s.w.bedBr.toNat ∧ s.w.bedBr ≠ 0 ∧
      s.w = { WorkRegs.zero with rate := s.w.rate, bedBr := s.w.bedBr }
  | .sB1Obr => s.cur.toNat = 55 ∧ 9 ≤ s.len.toNat ∧ s.RateDone ∧ s.f.prof = 1 ∧ s.f.cfg.toNat < 14 ∧
      bitrateEntry s.f.cfg.toNat s.f.bbr.toNat = some s.w.bedBr.toNat ∧ s.w.bedBr ≠ 0 ∧
      s.w = { WorkRegs.zero with rate := s.w.rate, bedBr := s.w.bedBr, obj := objectCount s.f.obj }
  | .sRes => s.TailAt 42 48 59 39 ∧ 9 ≤ s.len.toNat ∧ s.RateDone ∧ s.BranchDone
  | .sBr => s.TailAt 44 50 61 41 ∧ 9 ≤ s.len.toNat ∧ s.RateDone ∧ s.BranchDone ∧ s.ResolutionDone ∧ s.f.prof ≠ 1
  | .sCrc2 => s.TailAt 48 50 61 45 ∧ 9 ≤ s.len.toNat ∧ s.RateDone ∧ s.BranchDone ∧ s.ResolutionDone ∧ s.BitrateDone
  | .sCommit => s.TailAt 56 58 69 53 ∧ 9 ≤ s.len.toNat ∧ s.RateDone ∧ s.BranchDone ∧ s.ResolutionDone ∧ s.BitrateDone
  | .sDone => s.cur.toNat ≤ 69

/-- The invariant of the states the block gets to after a reset: the flags agree with `STATE` (spec/10_state.md R26,
R32), the result registers are 0 but for a success held, which is legal (R31, R36, R37), the error registers are 0 but
for an error held (R34), and the program counter and the working registers are where the steps so far left them. -/
structure State.Inv (s : State) : Prop where
  initialised : s.initialised = true
  busyIff : s.busy = true ↔ s.fsm ≠ .sIdle ∧ s.fsm ≠ .sDone
  doneIff : s.done = true ↔ s.fsm = .sDone
  errDone : s.err = true → s.done = true
  noResult : (s.done = false ∨ s.err = true) → s.r = ResultRegs.zero
  result : s.done = true → s.err = false → s.r.Legal
  noError : s.err = false → s.errCode = 0 ∧ s.errPos = 0
  errorCode : s.err = true → 1 ≤ s.errCode.toNat ∧ s.errCode.toNat ≤ 13 ∧ s.errPos.toNat ≤ 72
  stage : s.Stage

end Sys2Proof.Machine
end

