-- ==== Sys2Proof/Certificates/Slice0/Obligations.lean ====
section
/-! DEFINITION. The statements for the provers, from the rules of spec/. -/

open Sys2Proof Sys2Proof.Machine

/-! ## Encoding -/

/-- Decoding an encoded header gives the header back, every operand at every value (R101 to R105, R108, R114). -/
def Obligations.DecodeOfEncodeIsTheHeader : Prop :=
  ∀ i : Instr, i.wf = true → (encode i).decode = .form i

/-- A word that decodes has one meaning: it is the encoding of what it decodes to, bit for bit (R101 to R105, R108). -/
def Obligations.DecodedWordIsItsEncoding : Prop :=
  ∀ (h : HeaderWord) (i : Instr), h.decode = .form i → i.wf = true ∧ encode i = h

/-- The decoder gives a form exactly to the words of the form's row in the opcode table, `(HW & mask) = match`. -/
def Obligations.FormMapMatchesOpcodeTable : Prop :=
  ∀ h : HeaderWord,
    ((∃ nn sr crc1 cfg res br crc2 pad, h.decode = .form (.hdrCh nn sr crc1 cfg res br crc2 pad)) ↔
      h &&& 0xFFFF8E000000000000#72 = 0xFFF200000000000000#72) ∧
    ((∃ nn sr crc1 obj obr res crc2 pad, h.decode = .form (.hdrObj nn sr crc1 obj obr res crc2 pad)) ↔
      h &&& 0xFFFF8E001800000000#72 = 0xFFF202000000000000#72) ∧
    ((∃ nn sr crc1 cfg bbr obj obr res crc2 pad,
        h.decode = .form (.hdrChobj nn sr crc1 cfg bbr obj obr res crc2 pad)) ↔
      h &&& 0xFFFF8E001800000000#72 = 0xFFF202000800000000#72) ∧
    ((∃ nn sr crc1 ord res br crc2 pad, h.decode = .form (.hdrHoa nn sr crc1 ord res br crc2 pad)) ↔
      h &&& 0xFFFF8E000000000000#72 = 0xFFF204000000000000#72) ∧
    ((∃ nn sr crc1 sbt rest, h.decode = .form (.hdrRsvSbt nn sr crc1 sbt rest)) ↔
      h &&& 0xFFFF8E001000000000#72 = 0xFFF202001000000000#72) ∧
    ((∃ nn sr crc1 rest, h.decode = .form (.hdrRsvProf3 nn sr crc1 rest)) ↔
      h &&& 0xFFFF8E000000000000#72 = 0xFFF206000000000000#72) ∧
    ((∃ nn prof sr crc1 rest, h.decode = .form (.hdrRsvProf4to7 nn prof sr crc1 rest)) ↔
      h &&& 0xFFFF88000000000000#72 = 0xFFF208000000000000#72)

/-- Words the spec writes out decode to the headers they are written for (the examples of R115, R202, R206, R230,
R213, R155, R156). -/
def Obligations.SpecWordsDecodeToTheirForms : Prop :=
  decodeTableWord 72 0xFFF200400050000000 = some (.hdrCh 0 2 0 1 1 0 0 0) ∧
  decodeTableWord 72 0xFFF202400032400000 = some (.hdrObj 0 2 0 3 2 1 0 0) ∧
  decodeTableWord 72 0xFFF202400832082800 = some (.hdrChobj 0 2 0 3 2 4 1 1 0 0) ∧
  decodeTableWord 72 0xFFF204400080000000 = some (.hdrHoa 0 2 0 0 1 0 0 0) ∧
  decodeTableWord 72 0xFFF202401000000000 = some (.hdrRsvSbt 0 2 0 2 0) ∧
  decodeTableWord 72 0xFFF206400000000000 = some (.hdrRsvProf3 0 2 0 0) ∧
  decodeTableWord 72 0xFFF20E400000000000 = some (.hdrRsvProf4to7 0 7 2 0 0)

/-- `MemRead(p, n)`: the bit at stream offset `p` is the most significant, the bit at `p + n - 1` the least (R63). -/
def Obligations.MemReadTakesTheStreamBits : Prop :=
  ∀ (ib : Vector Byte 9) (p n i : Nat), p + n ≤ 72 → i < n →
    (memRead ib p n).getLsbD (n - 1 - i) = streamBit ib (p + i)

/-- The captured bytes hold the header word most significant bit first: stream bit `p` is `HW[71 - p]`. -/
def Obligations.CapturedWordIsReadFromItsTop : Prop :=
  ∀ (h : HeaderWord) (p : Nat), p < 72 → streamBit h.bytes p = h.getLsbD (71 - p)

/-- A header statement of any kind is an assembly error when one of its operands does not fit its field, and assembles
to the header with those operands when all fit; so also the nine bytes of a raw statement, `IB[0]` first (R113, R114). -/
def Obligations.AssemblerChecksEveryOperand : Prop :=
  (∀ nn sr crc1 cfg res br crc2 pad : Nat,
    assembleHeader (.ch nn sr crc1 cfg res br crc2 pad) =
      if nn < 8 ∧ sr < 16 ∧ crc1 < 256 ∧ cfg < 128 ∧ res < 4 ∧ br < 16 ∧ crc2 < 256 ∧ pad < 65536 then
        some (encode (.hdrCh (BitVec.ofNat 3 nn) (BitVec.ofNat 4 sr) (BitVec.ofNat 8 crc1) (BitVec.ofNat 7 cfg)
          (BitVec.ofNat 2 res) (BitVec.ofNat 4 br) (BitVec.ofNat 8 crc2) (BitVec.ofNat 16 pad)))
      else none) ∧
  (∀ nn sr crc1 obj obr res crc2 pad : Nat,
    assembleHeader (.obj nn sr crc1 obj obr res crc2 pad) =
      if nn < 8 ∧ sr < 16 ∧ crc1 < 256 ∧ obj < 128 ∧ obr < 16 ∧ res < 4 ∧ crc2 < 256 ∧ pad < 16384 then
        some (encode (.hdrObj (BitVec.ofNat 3 nn) (BitVec.ofNat 4 sr) (BitVec.ofNat 8 crc1) (BitVec.ofNat 7 obj)
          (BitVec.ofNat 4 obr) (BitVec.ofNat 2 res) (BitVec.ofNat 8 crc2) (BitVec.ofNat 14 pad)))
      else none) ∧
  (∀ nn sr crc1 cfg bbr obj obr res crc2 pad : Nat,
    assembleHeader (.chobj nn sr crc1 cfg bbr obj obr res crc2 pad) =
      if nn < 8 ∧ sr < 16 ∧ crc1 < 256 ∧ cfg < 128 ∧ bbr < 16 ∧ obj < 128 ∧ obr < 16 ∧ res < 4 ∧ crc2 < 256 ∧ pad < 8 then
        some (encode (.hdrChobj (BitVec.ofNat 3 nn) (BitVec.ofNat 4 sr) (BitVec.ofNat 8 crc1) (BitVec.ofNat 7 cfg)
          (BitVec.ofNat 4 bbr) (BitVec.ofNat 7 obj) (BitVec.ofNat 4 obr) (BitVec.ofNat 2 res) (BitVec.ofNat 8 crc2)
          (BitVec.ofNat 3 pad)))
      else none) ∧
  (∀ nn sr crc1 ord res br crc2 pad : Nat,
    assembleHeader (.hoa nn sr crc1 ord res br crc2 pad) =
      if nn < 8 ∧ sr < 16 ∧ crc1 < 256 ∧ ord < 16 ∧ res < 4 ∧ br < 16 ∧ crc2 < 256 ∧ pad < 524288 then
        some (encode (.hdrHoa (BitVec.ofNat 3 nn) (BitVec.ofNat 4 sr) (BitVec.ofNat 8 crc1) (BitVec.ofNat 4 ord)
          (BitVec.ofNat 2 res) (BitVec.ofNat 4 br) (BitVec.ofNat 8 crc2) (BitVec.ofNat 19 pad)))
      else none) ∧
  (∀ b0 b1 b2 b3 b4 b5 b6 b7 b8 : Nat,
    (assembleHeader (.raw b0 b1 b2 b3 b4 b5 b6 b7 b8)).map HeaderWord.bytes =
      if b0 < 256 ∧ b1 < 256 ∧ b2 < 256 ∧ b3 < 256 ∧ b4 < 256 ∧ b5 < 256 ∧ b6 < 256 ∧ b7 < 256 ∧ b8 < 256 then
        some #v[BitVec.ofNat 8 b0, BitVec.ofNat 8 b1, BitVec.ofNat 8 b2, BitVec.ofNat 8 b3, BitVec.ofNat 8 b4,
          BitVec.ofNat 8 b5, BitVec.ofNat 8 b6, BitVec.ofNat 8 b7, BitVec.ofNat 8 b8]
      else none)

/-! ## The step and the transaction -/

/-- A step at a captured header that decodes runs the meaning of the header, with the WAIT at the head of the outside's
actions used up (R115, R157). The first clause, that a step with no action left does the same, is the model's choice
and no rule of the spec: log 2 (DESIGN CHOICE; the ports stay idle) and log 1 (one step runs the whole transaction). -/
def Obligations.StepRunsTheDecodedHeader : Prop :=
  ∀ (s : State) (i : Instr), s.busy = true → s.atHeader = true → decodeBytes s.ib.toList = .form i →
    (s.host = [] → step s = exec i s) ∧
    (∀ rest, s.host = .wait :: rest → step s = exec i (s.withHost rest))

/-- A placed header word is what the next step runs: the step is the meaning of the word's header at the state an
accept of that word leaves, the outside's actions untouched. What placing a word does is the model's choice, log 3. -/
def Obligations.PlacedWordIsRunNext : Prop :=
  ∀ (s : State) (n w : Nat) (i : Instr), decodeTableWord n w = some i →
    step (s.withFetchWord n w) =
      exec i (s.accept { rst := false, start := true, inData := tableWord n w, inLen := 9 })

/-- The FSM refines the meanings: after the accept of a header's encoding, whatever the captured length, its field
steps end in exactly the state the meaning gives (R157). -/
def Obligations.FieldStepsRunTheMeaningOfTheHeader : Prop :=
  ∀ (s : State) (p : Ports) (i : Instr), i.wf = true → p.inData = encode i →
    finishTransaction (s.accept p) = exec i (s.accept p)

/-- Accept: at an edge with `rst = 0`, `start = 1` and `BUSY = 0` the input is captured, every field, working, result
and error register is cleared, and the transaction begins at `S_LEN` (R140). The premise `initialised` is the boot
rule R342: a reset comes before the first accept. -/
def Obligations.AcceptCapturesAndClears : Prop :=
  ∀ (s : State) (p : Ports) (stall : Bool), p.rst = false → p.start = true → s.busy = false → s.initialised = true →
    clockEdge p stall s = .next
      { ib := p.inData.bytes, len := p.inLen, fsm := .sLen, cur := 0, f := FieldRegs.zero, w := WorkRegs.zero,
        r := ResultRegs.zero, busy := true, done := false, err := false, errCode := 0, errPos := 0, host := s.host,
        initialised := true }

/-- A start, or any change of the ports but a reset, while the block is busy changes nothing: the edge does what it
does with the ports idle (R141). -/
def Obligations.StartWhileBusyIsIgnored : Prop :=
  ∀ (s : State) (p q : Ports) (stall : Bool), s.busy = true → p.rst = false → q.rst = false →
    clockEdge p stall s = clockEdge q stall s

/-- At an edge with `rst = 0` a busy block stalls, and nothing changes, or performs the field step `STATE` names (R142). -/
def Obligations.BusyEdgeStallsOrPerformsTheStep : Prop :=
  ∀ (s : State) (p : Ports), s.busy = true → p.rst = false →
    clockEdge p true s = .next s ∧ clockEdge p false s = fieldStep s

/-- An edge with `rst = 1` sets every register to its reset value, whatever the state, `start` and the stall: a running
transaction is abandoned with no result and no error (R340). -/
def Obligations.ResetClearsEveryRegister : Prop :=
  ∀ (s : State) (p : Ports) (stall : Bool), p.rst = true →
    clockEdge p stall s = .next
      { ib := #v[0, 0, 0, 0, 0, 0, 0, 0, 0], len := 0, fsm := .sIdle, cur := 0,
        f := ⟨0, 0, 0, 0, 0, 0, 0, 0, 0, 0, 0, 0, 0, 0⟩, w := ⟨0, 0, 0, 0, false, 0, 0, 0, 0, 0, 0, 0, 0⟩,
        r := ⟨0, 0, 0, 0, 0, 0, 0, 0, 0, 0, 0, 0, false, 0, 0, 0⟩, busy := false, done := false, err := false,
        errCode := 0, errPos := 0, host := s.host, initialised := true }

/-- While it is not busy and neither `rst` nor `start` is 1, the block changes no state (R158). -/
def Obligations.WaitingStatesHold : Prop :=
  ∀ (s : State) (p : Ports) (stall : Bool), s.busy = false → p.rst = false → p.start = false →
    clockEdge p stall s = .next s

/-- A start before the first reset since power-up is refused. That it is a refusal is the model's choice (log 6), after
R342 and spec/93_implementation_defined.md I14. -/
def Obligations.StartBeforeTheFirstResetIsRefused : Prop :=
  ∀ (s : State) (p : Ports) (stall : Bool), p.rst = false → p.start = true → s.busy = false → s.initialised = false →
    clockEdge p stall s = .refused .startBeforeReset

/-- A DECODE statement of the host, at a block that is not busy, is the accept of the assembled header with the length
given (R115). At a busy block it waits (spec/95_test_vectors.md program 4); that this is one step, which runs the
transaction to its end and leaves the statement to come, is the model's reading, log 19 (DEDUCED), and no rule of the
spec. A RESET statement is a reset edge. -/
def Obligations.HostStatementsDriveThePorts : Prop :=
  ∀ (s : State) (rest : List HostAction),
    (∀ (h : HeaderStmt) (w : HeaderWord) (len : Nat) (a : HostAction), assembleHeader h = some w → len < 16 →
      hostAction (.decode h len) = some a → s.host = a :: rest →
      (s.busy = false → s.initialised = true →
        step s = .next
          ((s.withHost rest).accept
            { rst := false, start := true, inData := w, inLen := BitVec.ofNat 4 len })) ∧
      (s.Inv → s.busy = true →
        ∃ t, step s = .next t ∧ t.done = true ∧ t.busy = false ∧ t.host = s.host)) ∧
    (∀ a : HostAction, hostAction .reset = some a → s.host = a :: rest →
      step s = .next (State.reset.withHost rest))

/-- The edge at which a transaction ends shows its result or its error; at the next edge a held start is accepted
again, with what the ports hold then (R353). -/
def Obligations.HeldStartIsAcceptedAtTheNextEdge : Prop :=
  ∀ (s t : State) (p q : Ports) (stall : Bool), s.busy = true → s.initialised = true → p.rst = false →
    clockEdge p false s = .next t → t.busy = false → q.rst = false → q.start = true →
    t.done = true ∧ clockEdge q stall t = .next (t.accept q)

/-- Which edges stall, and what the ports do meanwhile, does not matter: any run of edges without a reset that has at
least 17 edges without a stall ends the transaction in the same state as its field steps do alone (R142, R360). -/
def Obligations.StallsAndPortsDoNotChangeTheOutcome : Prop :=
  ∀ (s : State) (es : List (Ports × Bool)), (∀ e ∈ es, e.1.rst = false) → 17 ≤ es.countP (fun e => !e.2) →
    edgesWhileBusy es s = finishTransaction s

/-- Every transaction is over after at most 17 field steps, wherever it stands (R157). -/
def Obligations.TransactionEndsWithinSeventeenSteps : Prop :=
  ∀ s : State, s.busy = true → s.fsm ≠ .sIdle → s.fsm ≠ .sDone →
    ∃ t, finishTransaction s = .next t ∧ t.busy = false ∧ t.done = true ∧ t.fsm = .sDone

/-- A header that decodes successfully takes exactly the field steps of its form's sequence: 14, 15, 17 or 14 (R157). -/
def Obligations.SuccessTakesTheStepsOfItsForm : Prop :=
  ∀ (s t : State) (p : Ports) (i : Instr), i.wf = true → p.inData = encode i →
    exec i (s.accept p) = .next t → t.err = false →
    (∃ u, runSteps (i.steps - 1) (s.accept p) = .next u ∧ u.busy = true) ∧
      runSteps i.steps (s.accept p) = .next t

/-- WAIT on a running transaction ends with `DONE = 1` and the next statement of the host to come (R115). That it is one
step is the model's reading, log 1 (DEDUCED). -/
def Obligations.WaitEndsWithDone : Prop :=
  ∀ (s : State) (rest : List HostAction), s.Inv → s.busy = true → s.host = .wait :: rest →
    ∃ t, step s = .next t ∧ t.done = true ∧ t.busy = false ∧ t.host = rest

/-! ## What each form does -/

/-- HDR.CH when no check fails: the whole next state, with the result registers R180 gives; everything not named is
unchanged. -/
def Obligations.HdrChGivesItsResult : Prop :=
  ∀ (nn : BitVec 3) (sr : BitVec 4) (crc1 : Byte) (cfg : BitVec 7) (res : BitVec 2) (br : BitVec 4) (crc2 : Byte)
    (pad : BitVec 16) (s : State) (rate n v : Nat) (bits : BitVec 5) (fmt : BitVec 2),
    9 ≤ s.len.toNat → samplingRate sr.toNat = some rate → fixedChannels cfg.toNat = some n →
    resolutionClass res = some (bits, fmt) → bitrateEntry cfg.toNat br.toNat = some v → v ≠ 0 →
    exec (.hdrCh nn sr crc1 cfg res br crc2 pad) s = .next
      { s with
        fsm := .sDone, cur := 56, busy := false, done := true, err := false, errCode := 0, errPos := 0
        f := { FieldRegs.zero with
          sync := 0xFFF, codec := 2, nn := nn, prof := 0, sr := sr, cfg := cfg, res := res, br := br }
        w := { WorkRegs.zero with
          rate := BitVec.ofNat 32 rate, ctype := 1, ch := BitVec.ofNat 8 n, layV := namedLayout cfg.toNat,
          lay := if namedLayout cfg.toNat then BitVec.ofNat 4 cfg.toNat else 0, tbl := BitVec.ofNat 4 cfg.toNat,
          resBits := bits, fmt := fmt, br := BitVec.ofNat 32 v }
        r := {
          codecId := 2, nnType := nn, profile := 0, srIndex := sr, sampleRate := BitVec.ofNat 32 rate,
          resIndex := res, resBits := bits, sampleFmt := fmt, contentType := 1, chCount := BitVec.ofNat 8 n,
          objCount := 0, totalCh := BitVec.ofNat 8 n, layoutValid := namedLayout cfg.toNat,
          layoutTag := if namedLayout cfg.toNat then BitVec.ofNat 4 cfg.toNat else 0, ambOrder := 0,
          totalBitrate := BitVec.ofNat 32 v } }

/-- HDR.OBJ when no check fails: the whole next state, with the result registers R202 gives. -/
def Obligations.HdrObjGivesItsResult : Prop :=
  ∀ (nn : BitVec 3) (sr : BitVec 4) (crc1 : Byte) (obj : BitVec 7) (obr : BitVec 4) (res : BitVec 2) (crc2 : Byte)
    (pad : BitVec 14) (s : State) (rate v : Nat) (bits : BitVec 5) (fmt : BitVec 2),
    9 ≤ s.len.toNat → samplingRate sr.toNat = some rate → bitrateEntry 0 obr.toNat = some v → v ≠ 0 →
    resolutionClass res = some (bits, fmt) →
    exec (.hdrObj nn sr crc1 obj obr res crc2 pad) s = .next
      { s with
        fsm := .sDone, cur := 58, busy := false, done := true, err := false, errCode := 0, errPos := 0
        f := { FieldRegs.zero with
          sync := 0xFFF, codec := 2, nn := nn, prof := 1, sr := sr, sbt := 0, obj := obj, obr := obr, res := res }
        w := { WorkRegs.zero with
          rate := BitVec.ofNat 32 rate, ctype := 2, obj := BitVec.ofNat 8 (obj.toNat + 1), resBits := bits,
          fmt := fmt, objBr := BitVec.ofNat 32 v, br := BitVec.ofNat 32 (v * (obj.toNat + 1)) }
        r := {
          codecId := 2, nnType := nn, profile := 1, srIndex := sr, sampleRate := BitVec.ofNat 32 rate,
          resIndex := res, resBits := bits, sampleFmt := fmt, contentType := 2, chCount := 0,
          objCount := BitVec.ofNat 8 (obj.toNat + 1), totalCh := BitVec.ofNat 8 (obj.toNat + 1),
          layoutValid := false, layoutTag := 0, ambOrder := 0,
          totalBitrate := BitVec.ofNat 32 (v * (obj.toNat + 1)) } }

/-- HDR.CHOBJ when no check fails: the whole next state, with the result registers R206 gives. A bed without a row in
the named multichannel table has 0 channels and no layout. -/
def Obligations.HdrChobjGivesItsResult : Prop :=
  ∀ (nn : BitVec 3) (sr : BitVec 4) (crc1 : Byte) (cfg : BitVec 7) (bbr : BitVec 4) (obj : BitVec 7) (obr : BitVec 4)
    (res : BitVec 2) (crc2 : Byte) (pad : BitVec 3) (s : State) (rate bed v : Nat) (bits : BitVec 5)
    (fmt : BitVec 2),
    9 ≤ s.len.toNat → samplingRate sr.toNat = some rate → cfg.toNat < 14 →
    bitrateEntry cfg.toNat bbr.toNat = some bed → bed ≠ 0 → bitrateEntry 0 obr.toNat = some v → v ≠ 0 →
    resolutionClass res = some (bits, fmt) →
    exec (.hdrChobj nn sr crc1 cfg bbr obj obr res crc2 pad) s = .next
      { s with
        fsm := .sDone, cur := 69, busy := false, done := true, err := false, errCode := 0, errPos := 0
        f := { FieldRegs.zero with
          sync := 0xFFF, codec := 2, nn := nn, prof := 1, sr := sr, sbt := 1, cfg := cfg, bbr := bbr, obj := obj,
          obr := obr, res := res }
        w := { WorkRegs.zero with
          rate := BitVec.ofNat 32 rate, ctype := 3, ch := BitVec.ofNat 8 ((nmcLookup cfg.toNat).getD 0),
          obj := BitVec.ofNat 8 (obj.toNat + 1), layV := (nmcLookup cfg.toNat).isSome && namedLayout cfg.toNat,
          lay := if (nmcLookup cfg.toNat).isSome && namedLayout cfg.toNat then BitVec.ofNat 4 cfg.toNat else 0,
          resBits := bits, fmt := fmt, bedBr := BitVec.ofNat 32 bed, objBr := BitVec.ofNat 32 v,
          br := BitVec.ofNat 32 (bed + v * (obj.toNat + 1)) }
        r := {
          codecId := 2, nnType := nn, profile := 1, srIndex := sr, sampleRate := BitVec.ofNat 32 rate,
          resIndex := res, resBits := bits, sampleFmt := fmt, contentType := 3,
          chCount := BitVec.ofNat 8 ((nmcLookup cfg.toNat).getD 0), objCount := BitVec.ofNat 8 (obj.toNat + 1),
          totalCh := BitVec.ofNat 8 ((nmcLookup cfg.toNat).getD 0 + obj.toNat + 1),
          layoutValid := (nmcLookup cfg.toNat).isSome && namedLayout cfg.toNat,
          layoutTag := if (nmcLookup cfg.toNat).isSome && namedLayout cfg.toNat then BitVec.ofNat 4 cfg.toNat else 0,
          ambOrder := 0, totalBitrate := BitVec.ofNat 32 (bed + v * (obj.toNat + 1)) } }

/-- HDR.HOA when no check fails: the whole next state, with the result registers R230 gives. -/
def Obligations.HdrHoaGivesItsResult : Prop :=
  ∀ (nn : BitVec 3) (sr : BitVec 4) (crc1 : Byte) (ord : BitVec 4) (res : BitVec 2) (br : BitVec 4) (crc2 : Byte)
    (pad : BitVec 19) (s : State) (rate v : Nat) (bits : BitVec 5) (fmt : BitVec 2),
    9 ≤ s.len.toNat → samplingRate sr.toNat = some rate → ord.toNat ≤ 2 →
    resolutionClass res = some (bits, fmt) → bitrateEntry (11 + ord.toNat) br.toNat = some v → v ≠ 0 →
    exec (.hdrHoa nn sr crc1 ord res br crc2 pad) s = .next
      { s with
        fsm := .sDone, cur := 53, busy := false, done := true, err := false, errCode := 0, errPos := 0
        f := { FieldRegs.zero with
          sync := 0xFFF, codec := 2, nn := nn, prof := 2, sr := sr, ord := ord, res := res, br := br }
        w := { WorkRegs.zero with
          rate := BitVec.ofNat 32 rate, ctype := 4, ch := BitVec.ofNat 8 ((ord.toNat + 2) * (ord.toNat + 2)),
          order := BitVec.ofNat 5 (ord.toNat + 1), tbl := BitVec.ofNat 4 (11 + ord.toNat), resBits := bits,
          fmt := fmt, br := BitVec.ofNat 32 v }
        r := {
          codecId := 2, nnType := nn, profile := 2, srIndex := sr, sampleRate := BitVec.ofNat 32 rate,
          resIndex := res, resBits := bits, sampleFmt := fmt, contentType := 4,
          chCount := BitVec.ofNat 8 ((ord.toNat + 2) * (ord.toNat + 2)), objCount := 0,
          totalCh := BitVec.ofNat 8 ((ord.toNat + 2) * (ord.toNat + 2)), layoutValid := false, layoutTag := 0,
          ambOrder := BitVec.ofNat 5 (ord.toNat + 1), totalBitrate := BitVec.ofNat 32 v } }

/-- HDR.RSV.SBT when the prefix checks pass: InvalidSoundBedType (code 9) at offset 35 with `CUR = 37`, and no result
(R213, R301). -/
def Obligations.HdrRsvSbtTakesInvalidSoundBedType : Prop :=
  ∀ (nn : BitVec 3) (sr : BitVec 4) (crc1 : Byte) (sbt : BitVec 2) (rest : BitVec 35) (s : State) (rate : Nat),
    9 ≤ s.len.toNat → samplingRate sr.toNat = some rate → 2 ≤ sbt.toNat →
    exec (.hdrRsvSbt nn sr crc1 sbt rest) s = .next
      { s with
        fsm := .sDone, cur := 37, busy := false, done := true, err := true, errCode := 9, errPos := 35
        f := { FieldRegs.zero with sync := 0xFFF, codec := 2, nn := nn, prof := 1, sr := sr, sbt := sbt }
        w := { WorkRegs.zero with rate := BitVec.ofNat 32 rate }
        r := ResultRegs.zero }

/-- HDR.RSV.PROF3 and HDR.RSV.PROF4_7 when the prefix checks pass: InvalidCodingProfile (code 6) at offset 20 with
`CUR = 35`, and no result (R155, R156, R301). -/
def Obligations.ReservedProfilesTakeInvalidCodingProfile : Prop :=
  ∀ (nn prof : BitVec 3) (sr : BitVec 4) (crc1 : Byte) (rest : BitVec 37) (s : State) (rate : Nat),
    9 ≤ s.len.toNat → samplingRate sr.toNat = some rate →
    exec (.hdrRsvProf3 nn sr crc1 rest) s = .next
      { s with
        fsm := .sDone, cur := 35, busy := false, done := true, err := true, errCode := 6, errPos := 20
        f := { FieldRegs.zero with sync := 0xFFF, codec := 2, nn := nn, prof := 3, sr := sr }
        w := { WorkRegs.zero with rate := BitVec.ofNat 32 rate }
        r := ResultRegs.zero } ∧
    (4 ≤ prof.toNat →
      exec (.hdrRsvProf4to7 nn prof sr crc1 rest) s = .next
        { s with
          fsm := .sDone, cur := 35, busy := false, done := true, err := true, errCode := 6, errPos := 20
          f := { FieldRegs.zero with sync := 0xFFF, codec := 2, nn := nn, prof := prof, sr := sr }
          w := { WorkRegs.zero with rate := BitVec.ofNat 32 rate }
          r := ResultRegs.zero })

/-! ## Decode errors -/

/-- Which error HDR.CH reports, and where, in the order of R310: for every operand and every captured length. -/
def Obligations.HdrChReportsTheFirstError : Prop :=
  ∀ (nn : BitVec 3) (sr : BitVec 4) (crc1 : Byte) (cfg : BitVec 7) (res : BitVec 2) (br : BitVec 4) (crc2 : Byte)
    (pad : BitVec 16) (s : State), ∃ t, exec (.hdrCh nn sr crc1 cfg res br crc2 pad) s = .next t ∧
      if s.len.toNat < 9 then t.Failed 8 0
      else if 9 ≤ sr.toNat then t.Failed 4 23
      else if 14 ≤ cfg.toNat then t.Failed 5 35
      else if cfg.toNat = 4 ∨ 11 ≤ cfg.toNat then t.Failed 12 35
      else if res = 3 then t.Failed 7 42
      else if cfg.toNat = 5 then t.Failed 11 44
      else if bitrateEntry cfg.toNat br.toNat = some 0 then t.Failed 13 44
      else t.Succeeded

/-- Which error HDR.OBJ reports, and where, in the order of R310. -/
def Obligations.HdrObjReportsTheFirstError : Prop :=
  ∀ (nn : BitVec 3) (sr : BitVec 4) (crc1 : Byte) (obj : BitVec 7) (obr : BitVec 4) (res : BitVec 2) (crc2 : Byte)
    (pad : BitVec 14) (s : State), ∃ t, exec (.hdrObj nn sr crc1 obj obr res crc2 pad) s = .next t ∧
      if s.len.toNat < 9 then t.Failed 8 0
      else if 9 ≤ sr.toNat then t.Failed 4 23
      else if 12 ≤ obr.toNat then t.Failed 13 44
      else if res = 3 then t.Failed 7 48
      else t.Succeeded

/-- Which error HDR.CHOBJ reports, and where, in the order of R310. -/
def Obligations.HdrChobjReportsTheFirstError : Prop :=
  ∀ (nn : BitVec 3) (sr : BitVec 4) (crc1 : Byte) (cfg : BitVec 7) (bbr : BitVec 4) (obj : BitVec 7) (obr : BitVec 4)
    (res : BitVec 2) (crc2 : Byte) (pad : BitVec 3) (s : State),
    ∃ t, exec (.hdrChobj nn sr crc1 cfg bbr obj obr res crc2 pad) s = .next t ∧
      if s.len.toNat < 9 then t.Failed 8 0
      else if 9 ≤ sr.toNat then t.Failed 4 23
      else if 14 ≤ cfg.toNat then t.Failed 5 37
      else if cfg.toNat = 4 ∨ cfg.toNat = 5 then t.Failed 11 44
      else if bitrateEntry cfg.toNat bbr.toNat = some 0 then t.Failed 13 44
      else if 12 ≤ obr.toNat then t.Failed 13 55
      else if res = 3 then t.Failed 7 59
      else t.Succeeded

/-- Which error HDR.HOA reports, and where, in the order of R310. -/
def Obligations.HdrHoaReportsTheFirstError : Prop :=
  ∀ (nn : BitVec 3) (sr : BitVec 4) (crc1 : Byte) (ord : BitVec 4) (res : BitVec 2) (br : BitVec 4) (crc2 : Byte)
    (pad : BitVec 19) (s : State), ∃ t, exec (.hdrHoa nn sr crc1 ord res br crc2 pad) s = .next t ∧
      if s.len.toNat < 9 then t.Failed 8 0
      else if 9 ≤ sr.toNat then t.Failed 4 23
      else if 3 ≤ ord.toNat then t.Failed 10 35
      else if res = 3 then t.Failed 7 39
      else if bitrateEntry (11 + ord.toNat) br.toNat = some 0 then t.Failed 13 41
      else t.Succeeded

/-- Which error the reserved forms report, and where: the prefix errors first, then their own (R155, R156, R213, R310). -/
def Obligations.ReservedFormsReportTheFirstError : Prop :=
  ∀ (nn : BitVec 3) (sr : BitVec 4) (crc1 : Byte) (i : Instr) (s : State), i.wf = true →
    ((∃ rest, i = .hdrRsvProf3 nn sr crc1 rest) ∨ (∃ prof rest, i = .hdrRsvProf4to7 nn prof sr crc1 rest) →
      ∃ t, exec i s = .next t ∧
        if s.len.toNat < 9 then t.Failed 8 0 else if 9 ≤ sr.toNat then t.Failed 4 23 else t.Failed 6 20) ∧
    ((∃ sbt rest, i = .hdrRsvSbt nn sr crc1 sbt rest) →
      ∃ t, exec i s = .next t ∧
        if s.len.toNat < 9 then t.Failed 8 0 else if 9 ≤ sr.toNat then t.Failed 4 23 else t.Failed 9 35)

/-- A header of no form, nine bytes of it, ends in the first prefix error: SyncMismatch at 0 with `CUR = 12`,
UnsupportedCodec at 12 with `CUR = 16`, or ReservedBitViolation at 16 with `CUR = 17` (R147, R148, R149). -/
def Obligations.HeadersOfNoFormTakeThePrefixError : Prop :=
  ∀ (s : State) (p : Ports), 9 ≤ p.inLen.toNat → (∀ i, p.inData.decode ≠ .form i) →
    ∃ t, waitDone (s.accept p) = .next t ∧
      if p.inData.slice 60 12 ≠ 0xFFF#12 then t.Failed 1 0 ∧ t.cur = 12
      else if p.inData.slice 56 4 ≠ 2#4 then t.Failed 2 12 ∧ t.cur = 16
      else t.Failed 3 16 ∧ t.cur = 17

/-- With fewer than nine bytes every header, of a form or of none, ends in BufferExhausted at 0 before a bit is read:
the cursor stays 0 and no field register is written (R146). -/
def Obligations.ShortBufferFailsBeforeAnyRead : Prop :=
  ∀ (s : State) (p : Ports), p.inLen.toNat < 9 →
    waitDone (s.accept p) = .next
      { s.accept p with
        fsm := .sDone, cur := 0, f := FieldRegs.zero, busy := false, done := true, err := true, errCode := 8,
        errPos := 0 }

/-- The cursor guard: a field step whose field does not fit the captured bytes takes BufferExhausted at `CUR` and reads
nothing (R145). -/
def Obligations.CursorGuardTakesBufferExhausted : Prop :=
  ∀ s : State, 0 < s.fsm.width → 8 * min s.len.toNat 9 < s.cur.toNat + s.fsm.width →
    fieldStep s = .next
      { s with fsm := .sDone, busy := false, done := true, err := true, errCode := 8, errPos := s.cur }

/-- In every state that meets the invariant, once `S_LEN` has passed, the guard never fires (R145): no field step ends
in BufferExhausted. -/
def Obligations.CursorGuardNeverFires : Prop :=
  ∀ s t : State, s.Inv → s.busy = true → s.fsm ≠ .sLen → fieldStep s = .next t → t.errCode ≠ 8

/-- A field step either moves to another field step, with the flags, the error registers and the results as they were,
or commits, or takes a decode error, which leaves the results as they were; it never does two of these (R142, R301). -/
def Obligations.FieldStepMovesOnOrEnds : Prop :=
  ∀ s t : State, s.busy = true → fieldStep s = .next t →
    (s.fsm ≠ .sCommit ∧ t.fsm ≠ .sIdle ∧ t.fsm ≠ .sLen ∧ t.fsm ≠ .sDone ∧ t.busy = true ∧ t.done = s.done ∧
      t.err = s.err ∧ t.errCode = s.errCode ∧ t.errPos = s.errPos ∧ t.r = s.r) ∨
    (s.fsm = .sCommit ∧ t.fsm = .sDone ∧ t.busy = false ∧ t.done = true ∧ t.err = false ∧ t.errCode = s.errCode ∧
      t.errPos = s.errPos) ∨
    (s.fsm ≠ .sCommit ∧ t.fsm = .sDone ∧ t.busy = false ∧ t.done = true ∧ t.err = true ∧ 1 ≤ t.errCode.toNat ∧
      t.errCode.toNat ≤ 13 ∧ t.r = s.r)

/-! ## Frames and the register files -/

/-- No form changes the captured input, what the outside does next, or the boot flag (R23). -/
def Obligations.FormsLeaveTheCapturedInput : Prop :=
  ∀ (i : Instr) (s t : State), exec i s = .next t →
    t.ib = s.ib ∧ t.len = s.len ∧ t.host = s.host ∧ t.initialised = s.initialised

/-- No field step changes the captured input (R23); only `S_COMMIT` writes a result register (R31). -/
def Obligations.FieldStepsLeaveTheCapturedInput : Prop :=
  ∀ s t : State, fieldStep s = .next t →
    t.ib = s.ib ∧ t.len = s.len ∧ t.host = s.host ∧ t.initialised = s.initialised ∧
      (s.fsm ≠ .sCommit → t.r = s.r)

/-- Each field register is written only by the field step R27 names, with the bits read at the cursor. -/
def Obligations.FieldRegistersAreWrittenByTheirSteps : Prop :=
  ∀ s t : State, fieldStep s = .next t →
    (t.f.sync = s.f.sync ∨ s.fsm = .sSync ∧ t.f.sync = memRead s.ib s.cur.toNat 12) ∧
    (t.f.codec = s.f.codec ∨ s.fsm = .sCodec ∧ t.f.codec = memRead s.ib s.cur.toNat 4) ∧
    (t.f.anc = s.f.anc ∨ s.fsm = .sAnc ∧ t.f.anc = memRead s.ib s.cur.toNat 1) ∧
    (t.f.nn = s.f.nn ∨ s.fsm = .sNn ∧ t.f.nn = memRead s.ib s.cur.toNat 3) ∧
    (t.f.prof = s.f.prof ∨ s.fsm = .sProf ∧ t.f.prof = memRead s.ib s.cur.toNat 3) ∧
    (t.f.sr = s.f.sr ∨ s.fsm = .sSr ∧ t.f.sr = memRead s.ib s.cur.toNat 4) ∧
    (t.f.cfg = s.f.cfg ∨ (s.fsm = .sACfg ∨ s.fsm = .sB1Cfg) ∧ t.f.cfg = memRead s.ib s.cur.toNat 7) ∧
    (t.f.sbt = s.f.sbt ∨ s.fsm = .sBSbt ∧ t.f.sbt = memRead s.ib s.cur.toNat 2) ∧
    (t.f.bbr = s.f.bbr ∨ s.fsm = .sB1Bbr ∧ t.f.bbr = memRead s.ib s.cur.toNat 4) ∧
    (t.f.obj = s.f.obj ∨ (s.fsm = .sB0Obj ∨ s.fsm = .sB1Obj) ∧ t.f.obj = memRead s.ib s.cur.toNat 7) ∧
    (t.f.obr = s.f.obr ∨ (s.fsm = .sB0Obr ∨ s.fsm = .sB1Obr) ∧ t.f.obr = memRead s.ib s.cur.toNat 4) ∧
    (t.f.ord = s.f.ord ∨ s.fsm = .sCOrd ∧ t.f.ord = memRead s.ib s.cur.toNat 4) ∧
    (t.f.res = s.f.res ∨ s.fsm = .sRes ∧ t.f.res = memRead s.ib s.cur.toNat 2) ∧
    (t.f.br = s.f.br ∨ s.fsm = .sBr ∧ t.f.br = memRead s.ib s.cur.toNat 4)

/-- Each working register is written only by the field steps R29 names, and `W_CH` also by `S_B0_OBR`, which R29's row
does not name: it writes 0 there (R205). -/
def Obligations.WorkingRegistersAreWrittenByTheirSteps : Prop :=
  ∀ s t : State, fieldStep s = .next t →
    (t.w.rate = s.w.rate ∨ s.fsm = .sSr) ∧
    (t.w.ctype = s.w.ctype ∨ s.fsm = .sACfg ∨ s.fsm = .sB0Obr ∨ s.fsm = .sB1Obr ∨ s.fsm = .sCOrd) ∧
    (t.w.ch = s.w.ch ∨ s.fsm = .sACfg ∨ (s.fsm = .sB0Obr ∧ t.w.ch = 0) ∨ s.fsm = .sB1Obr ∨ s.fsm = .sCOrd) ∧
    (t.w.obj = s.w.obj ∨ s.fsm = .sB0Obj ∨ s.fsm = .sB1Obj) ∧
    (t.w.layV = s.w.layV ∧ t.w.lay = s.w.lay ∨ s.fsm = .sACfg ∨ s.fsm = .sB1Obr) ∧
    (t.w.order = s.w.order ∨ s.fsm = .sCOrd) ∧
    (t.w.tbl = s.w.tbl ∨ s.fsm = .sACfg ∨ s.fsm = .sCOrd) ∧
    (t.w.resBits = s.w.resBits ∧ t.w.fmt = s.w.fmt ∨ s.fsm = .sRes) ∧
    (t.w.bedBr = s.w.bedBr ∨ s.fsm = .sB1Bbr) ∧
    (t.w.objBr = s.w.objBr ∨ s.fsm = .sB0Obr ∨ s.fsm = .sB1Obr) ∧
    (t.w.br = s.w.br ∨ s.fsm = .sB0Obr ∨ s.fsm = .sB1Obr ∨ s.fsm = .sBr)

/-- The cursor moves by exactly the width of the step's field and never past 72; only a read that does not fit leaves
it where it is (R24, R25). -/
def Obligations.CursorMovesByTheFieldsWidth : Prop :=
  ∀ s t : State, s.cur.toNat ≤ 72 → fieldStep s = .next t →
    t.cur.toNat ≤ 72 ∧
      (t.cur.toNat = s.cur.toNat + s.fsm.width ∨
        t.cur = s.cur ∧ 8 * min s.len.toNat 9 < s.cur.toNat + s.fsm.width ∧ t.errCode = 8)

/-! ## Whole-machine rules -/

/-- The block right after reset meets the invariant (R38). -/
def Obligations.ResetMeetsTheInvariant : Prop :=
  State.reset.Inv

/-- Every step of the machine keeps the invariant. -/
def Obligations.EveryStepKeepsTheInvariant : Prop :=
  ∀ s t : State, s.Inv → step s = .next t → t.Inv

/-- From a state that meets the invariant no step faults or is refused. -/
def Obligations.InvariantStatesNeverStop : Prop :=
  ∀ s : State, s.Inv → ∃ t, step s = .next t

/-- Whenever a form ends in a success, the result registers hold legal values: the sums and ranges of R36, the row of
its content type in R37, the ranges of R30. -/
def Obligations.SuccessfulResultsAreLegal : Prop :=
  ∀ (i : Instr) (s t : State), exec i s = .next t → t.resultValid = true → t.r.Legal

/-- The total bitrate of content with objects is exact, `bed + per-object * (field + 1)`, and never above 25472000:
nothing wraps (R215). -/
def Obligations.ObjectBitratesAreExact : Prop :=
  ∀ (nn : BitVec 3) (sr : BitVec 4) (crc1 crc2 : Byte) (cfg : BitVec 7) (bbr : BitVec 4) (obj : BitVec 7)
    (obr : BitVec 4) (res : BitVec 2) (pad : BitVec 3) (pad' : BitVec 14) (s t : State) (bed v : Nat),
    t.resultValid = true → bitrateEntry 0 obr.toNat = some v →
    (bitrateEntry cfg.toNat bbr.toNat = some bed → exec (.hdrChobj nn sr crc1 cfg bbr obj obr res crc2 pad) s = .next t →
      t.r.totalBitrate.toNat = bed + v * (obj.toNat + 1) ∧ t.r.totalBitrate.toNat ≤ 25472000) ∧
    (exec (.hdrObj nn sr crc1 obj obr res crc2 pad') s = .next t →
      t.r.totalBitrate.toNat = v * (obj.toNat + 1) ∧ t.r.totalBitrate.toNat ≤ 24576000)

/-- The outputs change only at a reset, an accept, the commit or a decode error (R354). -/
def Obligations.OutputsChangeOnlyAtFourKindsOfEdge : Prop :=
  ∀ (s t : State) (p : Ports) (stall : Bool), clockEdge p stall s = .next t → t.outputs ≠ s.outputs →
    p.rst = true ∨ (s.busy = false ∧ p.start = true ∧ t = s.accept p) ∨
      (s.busy = true ∧ stall = false ∧ s.fsm = .sCommit) ∨
      (s.busy = true ∧ stall = false ∧ t.fsm = .sDone ∧ t.err = true)

/-- No state written by one decode influences a later one: what the outputs show at the end of a transaction depends on
the captured bytes and length alone, whatever the block did before (R6). -/
def Obligations.TransactionsForgetThePast : Prop :=
  ∀ (s s' : State) (p : Ports), ∃ t t', waitDone (s.accept p) = .next t ∧ waitDone (s'.accept p) = .next t' ∧
    t.outputs = t'.outputs

/-- The CRC bytes and the bits after the last field never affect a result or an error: two headers that differ only
there show the same outputs at the end of their field steps (R61, R111). -/
def Obligations.IgnoredBitsDoNotMatter : Prop :=
  ∀ (s : State) (p q : Ports) (i j : Instr), i.wf = true → j.wf = true → i.eraseIgnored = j.eraseIgnored →
    p.inData = encode i → q.inData = encode j → p.inLen = q.inLen →
    ∃ t u, finishTransaction (s.accept p) = .next t ∧ finishTransaction (s.accept q) = .next u ∧
      t.outputs = u.outputs

/-- A bitrate lookup fails MissingBitrateTable for 10.2 and 22.2 whatever the index, fails InvalidBitrateIndex on a
zero entry, and gives every other entry unchanged (R250). -/
def Obligations.BitrateLookupChecksTableThenEntry : Prop :=
  ∀ (c : Nat) (i : BitVec 4), c < 14 →
    ((c = 4 ∨ c = 5) ∧ bitrateLookup c i = .error .missingBitrateTable) ∨
    (c ≠ 4 ∧ c ≠ 5 ∧ ∃ v, bitrateEntry c i.toNat = some v ∧
      ((v = 0 ∧ bitrateLookup c i = .error .invalidBitrateIndex) ∨
        (v ≠ 0 ∧ ∃ b, bitrateLookup c i = .ok b ∧ b.toNat = v)))

/-- What the host reads: the four bits of `STATUS` and the error registers (R33, R35), with zeros above a register's
bits, which is the model's choice (log 21). That `COMMAND` (write-only) and the unused register numbers 4 to 7 and from
24 on give no value is the model's reading (log 17, DEDUCED), and no rule of the spec says it of a read. -/
def Obligations.HostReadsTheStatusRegisters : Prop :=
  ∀ (s : State) (n : Nat),
    (∃ v, s.hostRead 0 = some v ∧ v.toNat = s.busy.toNat + 2 * s.done.toNat + 4 * s.err.toNat +
      8 * (s.done && !s.err).toNat) ∧
    (∃ v, s.hostRead 1 = some v ∧ v.toNat = s.errCode.toNat) ∧
    (∃ v, s.hostRead 2 = some v ∧ v.toNat = s.errPos.toNat) ∧
    (n = 3 ∨ (4 ≤ n ∧ n ≤ 7) ∨ 24 ≤ n → s.hostRead n = none)

/-- What the host reads at the register numbers 8 to 23: the result register R30 gives the number (R30, R35). That the
bits above a register's own are zeros is the model's choice (log 21). -/
def Obligations.HostReadsTheResultRegisters : Prop :=
  ∀ s : State,
    [8, 9, 10, 11, 12, 13, 14, 15, 16, 17, 18, 19, 20, 21, 22, 23].map
        (fun n => (s.hostRead n).map BitVec.toNat) =
      [s.r.codecId.toNat, s.r.nnType.toNat, s.r.profile.toNat, s.r.srIndex.toNat, s.r.sampleRate.toNat,
        s.r.resIndex.toNat, s.r.resBits.toNat, s.r.sampleFmt.toNat, s.r.contentType.toNat, s.r.chCount.toNat,
        s.r.objCount.toNat, s.r.totalCh.toNat, s.r.layoutValid.toNat, s.r.layoutTag.toNat, s.r.ambOrder.toNat,
        s.r.totalBitrate.toNat].map some
end

