-- ==== Sys2Proof/Laws/Encoding.lean ====
section
/-! SUPPORT. Slices, bytes and concatenations of header words. -/

namespace Sys2Proof

theorem HeaderWord.getLsbD_slice (h : HeaderWord) (lo w i : Nat) :
    (h.slice lo w).getLsbD i = (decide (i < w) && h.getLsbD (lo + i)) := by
  simp [HeaderWord.slice]

/-- A slice that lies in the high part of a concatenation (`rw` unifies the widths; `simp` does not). -/
theorem extract_of_high {v w lo k : Nat} (x : BitVec v) (y : BitVec w) (h : w ≤ lo) :
    BitVec.extractLsb' lo k (x ++ y) = BitVec.extractLsb' (lo - w) k x :=
  BitVec.extractLsb'_append_eq_of_le h

/-- A slice that lies in the low part of a concatenation. -/
theorem extract_of_low {v w lo k : Nat} (x : BitVec v) (y : BitVec w) (h : lo + k ≤ w) :
    BitVec.extractLsb' lo k (x ++ y) = BitVec.extractLsb' lo k y :=
  BitVec.extractLsb'_append_eq_of_add_le h

/-- The bytes of a header word, joined again, are the header word. -/
@[simp] theorem headerWordOf_bytes (h : HeaderWord) : headerWordOf h.bytes = h := by
  apply BitVec.eq_of_getLsbD_eq
  intro i hi
  simp only [headerWordOf, HeaderWord.bytes, HeaderWord.slice, Vector.getElem_mk, List.getElem_toArray,
    List.getElem_cons_zero, List.getElem_cons_succ]
  repeat rw [BitVec.getLsbD_append]
  simp only [BitVec.getLsbD_extractLsb']
  split_ifs
  all_goals (rw [decide_eq_true (by omega), Bool.true_and]; congr 1; omega)

/-- The header word of nine bytes has those bytes. -/
@[simp] theorem HeaderWord.bytes_headerWordOf (ib : Vector Byte 9) : (headerWordOf ib).bytes = ib := by
  have key : ∀ lo (b : Byte), (∀ i, i < 8 → (headerWordOf ib).getLsbD (lo + i) = b.getLsbD i) →
      (headerWordOf ib).slice lo 8 = b := by
    intro lo b hb
    apply BitVec.eq_of_getLsbD_eq
    intro i hi
    rw [HeaderWord.getLsbD_slice, decide_eq_true hi, Bool.true_and, hb i hi]
  have bit : ∀ k (hk : k < 9) i, i < 8 → (headerWordOf ib).getLsbD (64 - 8 * k + i) = ib[k].getLsbD i := by
    intro k hk i hi
    unfold headerWordOf
    interval_cases k
    all_goals
      repeat (rw [BitVec.getLsbD_append]; first | rw [if_pos (by omega)] | rw [if_neg (by omega)])
      congr 1
      omega
  apply Vector.ext
  intro k hk
  have := key (64 - 8 * k) ib[k] (bit k hk)
  rw [← this]
  interval_cases k <;> rfl

/-- An operand is checked and then used: all that `operand` does in a header statement. -/
theorem operand_bind {α : Type} (w v : Nat) (f : BitVec w → Option α) :
    (operand w v).bind f = if v < 2 ^ w then f (BitVec.ofNat w v) else none := by
  unfold operand
  split <;> rfl

theorem operand_of_lt {w v : Nat} (h : v < 2 ^ w) : operand w v = some (BitVec.ofNat w v) :=
  if_pos h

theorem operand_of_le {w v : Nat} (h : 2 ^ w ≤ v) : operand w v = none :=
  if_neg (Nat.not_lt.mpr h)

/-- Decoding nine registers byte by byte is decoding their header word. -/
theorem decodeBytes_toList (ib : Vector Byte 9) : decodeBytes ib.toList = (headerWordOf ib).decode := by
  rcases ib with ⟨⟨l⟩, hl⟩
  match l, hl with
  | [_, _, _, _, _, _, _, _, _], _ => rfl

/-- A word of the opcode table, all 72 bits of it, is the header word of that number. -/
theorem tableWord_all (w : Nat) : tableWord 72 w = BitVec.ofNat 72 w := by
  simp [tableWord, BitVec.toNat_eq]

/-- The slices of the common prefix, whatever the header's rest (spec/30_encoding.md R101). -/
theorem slices_of_prefix (nn prof : BitVec 3) (sr : BitVec 4) (crc1 : Byte) (rest : BitVec 37) (h : HeaderWord)
    (e : h = encodePrefix nn prof sr crc1 ++ rest) :
    h.slice 60 12 = 0xFFF#12 ∧ h.slice 56 4 = 2#4 ∧ h.slice 55 1 = 0#1 ∧ h.slice 52 3 = nn ∧ h.slice 49 3 = prof ∧
      h.slice 45 4 = sr ∧ h.slice 37 8 = crc1 ∧ h.slice 0 37 = rest := by
  subst e
  refine ⟨?_, ?_, ?_, ?_, ?_, ?_, ?_, ?_⟩ <;>
  · simp only [encodePrefix, HeaderWord.slice]
    repeat (first | rw [extract_of_high _ _ (by decide)] | rw [extract_of_low _ _ (by decide)])
    first | rfl | exact BitVec.extractLsb'_eq_self

/-- A slice of the 37 bits after the prefix. -/
theorem slice_of_rest (front : BitVec 35) (rest : BitVec 37) (lo w : Nat) (h : HeaderWord) (e : h = front ++ rest)
    (hle : lo + w ≤ 37) : h.slice lo w = rest.extractLsb' lo w := by
  subst e
  exact extract_of_low front rest hle

namespace Machine

/-- `MemRead` after a capture is a slice of the captured word. -/
theorem memRead_bytes (h : HeaderWord) (p n : Nat) : memRead h.bytes p n = h.slice (72 - p - n) n := by
  simp [memRead]

end Machine

end Sys2Proof
end

