-- ==== Sys2Proof/Laws/State.lean ====
section
/-! SUPPORT. What each state update leaves in each field, one lemma per field per update, so that no proof unfolds a
record update. -/

namespace Sys2Proof.Machine

@[simp] theorem State.goTo_ib (x : Fsm) (s : State) : (s.goTo x).ib = s.ib := rfl
@[simp] theorem State.goTo_len (x : Fsm) (s : State) : (s.goTo x).len = s.len := rfl
@[simp] theorem State.goTo_fsm (x : Fsm) (s : State) : (s.goTo x).fsm = x := rfl
@[simp] theorem State.goTo_cur (x : Fsm) (s : State) : (s.goTo x).cur = s.cur := rfl
@[simp] theorem State.goTo_f (x : Fsm) (s : State) : (s.goTo x).f = s.f := rfl
@[simp] theorem State.goTo_w (x : Fsm) (s : State) : (s.goTo x).w = s.w := rfl
@[simp] theorem State.goTo_r (x : Fsm) (s : State) : (s.goTo x).r = s.r := rfl
@[simp] theorem State.goTo_busy (x : Fsm) (s : State) : (s.goTo x).busy = s.busy := rfl
@[simp] theorem State.goTo_done (x : Fsm) (s : State) : (s.goTo x).done = s.done := rfl
@[simp] theorem State.goTo_err (x : Fsm) (s : State) : (s.goTo x).err = s.err := rfl
@[simp] theorem State.goTo_errCode (x : Fsm) (s : State) : (s.goTo x).errCode = s.errCode := rfl
@[simp] theorem State.goTo_errPos (x : Fsm) (s : State) : (s.goTo x).errPos = s.errPos := rfl
@[simp] theorem State.goTo_host (x : Fsm) (s : State) : (s.goTo x).host = s.host := rfl
@[simp] theorem State.goTo_initialised (x : Fsm) (s : State) : (s.goTo x).initialised = s.initialised := rfl

@[simp] theorem State.advance_ib (n : Nat) (s : State) : (s.advance n).ib = s.ib := rfl
@[simp] theorem State.advance_len (n : Nat) (s : State) : (s.advance n).len = s.len := rfl
@[simp] theorem State.advance_fsm (n : Nat) (s : State) : (s.advance n).fsm = s.fsm := rfl
@[simp] theorem State.advance_cur (n : Nat) (s : State) : (s.advance n).cur = s.cur + BitVec.ofNat 7 n := rfl
@[simp] theorem State.advance_f (n : Nat) (s : State) : (s.advance n).f = s.f := rfl
@[simp] theorem State.advance_w (n : Nat) (s : State) : (s.advance n).w = s.w := rfl
@[simp] theorem State.advance_r (n : Nat) (s : State) : (s.advance n).r = s.r := rfl
@[simp] theorem State.advance_busy (n : Nat) (s : State) : (s.advance n).busy = s.busy := rfl
@[simp] theorem State.advance_done (n : Nat) (s : State) : (s.advance n).done = s.done := rfl
@[simp] theorem State.advance_err (n : Nat) (s : State) : (s.advance n).err = s.err := rfl
@[simp] theorem State.advance_errCode (n : Nat) (s : State) : (s.advance n).errCode = s.errCode := rfl
@[simp] theorem State.advance_errPos (n : Nat) (s : State) : (s.advance n).errPos = s.errPos := rfl
@[simp] theorem State.advance_host (n : Nat) (s : State) : (s.advance n).host = s.host := rfl
@[simp] theorem State.advance_initialised (n : Nat) (s : State) : (s.advance n).initialised = s.initialised := rfl

@[simp] theorem State.flagsAtAccept_ib (s : State) : (s.flagsAtAccept).ib = s.ib := rfl
@[simp] theorem State.flagsAtAccept_len (s : State) : (s.flagsAtAccept).len = s.len := rfl
@[simp] theorem State.flagsAtAccept_fsm (s : State) : (s.flagsAtAccept).fsm = s.fsm := rfl
@[simp] theorem State.flagsAtAccept_cur (s : State) : (s.flagsAtAccept).cur = s.cur := rfl
@[simp] theorem State.flagsAtAccept_f (s : State) : (s.flagsAtAccept).f = s.f := rfl
@[simp] theorem State.flagsAtAccept_w (s : State) : (s.flagsAtAccept).w = s.w := rfl
@[simp] theorem State.flagsAtAccept_r (s : State) : (s.flagsAtAccept).r = s.r := rfl
@[simp] theorem State.flagsAtAccept_busy (s : State) : (s.flagsAtAccept).busy = true := rfl
@[simp] theorem State.flagsAtAccept_done (s : State) : (s.flagsAtAccept).done = false := rfl
@[simp] theorem State.flagsAtAccept_err (s : State) : (s.flagsAtAccept).err = false := rfl
@[simp] theorem State.flagsAtAccept_errCode (s : State) : (s.flagsAtAccept).errCode = s.errCode := rfl
@[simp] theorem State.flagsAtAccept_errPos (s : State) : (s.flagsAtAccept).errPos = s.errPos := rfl
@[simp] theorem State.flagsAtAccept_host (s : State) : (s.flagsAtAccept).host = s.host := rfl
@[simp] theorem State.flagsAtAccept_initialised (s : State) : (s.flagsAtAccept).initialised = s.initialised := rfl

@[simp] theorem State.flagsAtCommit_ib (s : State) : (s.flagsAtCommit).ib = s.ib := rfl
@[simp] theorem State.flagsAtCommit_len (s : State) : (s.flagsAtCommit).len = s.len := rfl
@[simp] theorem State.flagsAtCommit_fsm (s : State) : (s.flagsAtCommit).fsm = s.fsm := rfl
@[simp] theorem State.flagsAtCommit_cur (s : State) : (s.flagsAtCommit).cur = s.cur := rfl
@[simp] theorem State.flagsAtCommit_f (s : State) : (s.flagsAtCommit).f = s.f := rfl
@[simp] theorem State.flagsAtCommit_w (s : State) : (s.flagsAtCommit).w = s.w := rfl
@[simp] theorem State.flagsAtCommit_r (s : State) : (s.flagsAtCommit).r = s.r := rfl
@[simp] theorem State.flagsAtCommit_busy (s : State) : (s.flagsAtCommit).busy = false := rfl
@[simp] theorem State.flagsAtCommit_done (s : State) : (s.flagsAtCommit).done = true := rfl
@[simp] theorem State.flagsAtCommit_err (s : State) : (s.flagsAtCommit).err = false := rfl
@[simp] theorem State.flagsAtCommit_errCode (s : State) : (s.flagsAtCommit).errCode = s.errCode := rfl
@[simp] theorem State.flagsAtCommit_errPos (s : State) : (s.flagsAtCommit).errPos = s.errPos := rfl
@[simp] theorem State.flagsAtCommit_host (s : State) : (s.flagsAtCommit).host = s.host := rfl
@[simp] theorem State.flagsAtCommit_initialised (s : State) : (s.flagsAtCommit).initialised = s.initialised := rfl

@[simp] theorem State.flagsAtError_ib (s : State) : (s.flagsAtError).ib = s.ib := rfl
@[simp] theorem State.flagsAtError_len (s : State) : (s.flagsAtError).len = s.len := rfl
@[simp] theorem State.flagsAtError_fsm (s : State) : (s.flagsAtError).fsm = s.fsm := rfl
@[simp] theorem State.flagsAtError_cur (s : State) : (s.flagsAtError).cur = s.cur := rfl
@[simp] theorem State.flagsAtError_f (s : State) : (s.flagsAtError).f = s.f := rfl
@[simp] theorem State.flagsAtError_w (s : State) : (s.flagsAtError).w = s.w := rfl
@[simp] theorem State.flagsAtError_r (s : State) : (s.flagsAtError).r = s.r := rfl
@[simp] theorem State.flagsAtError_busy (s : State) : (s.flagsAtError).busy = false := rfl
@[simp] theorem State.flagsAtError_done (s : State) : (s.flagsAtError).done = true := rfl
@[simp] theorem State.flagsAtError_err (s : State) : (s.flagsAtError).err = true := rfl
@[simp] theorem State.flagsAtError_errCode (s : State) : (s.flagsAtError).errCode = s.errCode := rfl
@[simp] theorem State.flagsAtError_errPos (s : State) : (s.flagsAtError).errPos = s.errPos := rfl
@[simp] theorem State.flagsAtError_host (s : State) : (s.flagsAtError).host = s.host := rfl
@[simp] theorem State.flagsAtError_initialised (s : State) : (s.flagsAtError).initialised = s.initialised := rfl

@[simp] theorem State.withHost_ib (acts : List HostAction) (s : State) : (s.withHost acts).ib = s.ib := rfl
@[simp] theorem State.withHost_len (acts : List HostAction) (s : State) : (s.withHost acts).len = s.len := rfl
@[simp] theorem State.withHost_fsm (acts : List HostAction) (s : State) : (s.withHost acts).fsm = s.fsm := rfl
@[simp] theorem State.withHost_cur (acts : List HostAction) (s : State) : (s.withHost acts).cur = s.cur := rfl
@[simp] theorem State.withHost_f (acts : List HostAction) (s : State) : (s.withHost acts).f = s.f := rfl
@[simp] theorem State.withHost_w (acts : List HostAction) (s : State) : (s.withHost acts).w = s.w := rfl
@[simp] theorem State.withHost_r (acts : List HostAction) (s : State) : (s.withHost acts).r = s.r := rfl
@[simp] theorem State.withHost_busy (acts : List HostAction) (s : State) : (s.withHost acts).busy = s.busy := rfl
@[simp] theorem State.withHost_done (acts : List HostAction) (s : State) : (s.withHost acts).done = s.done := rfl
@[simp] theorem State.withHost_err (acts : List HostAction) (s : State) : (s.withHost acts).err = s.err := rfl
@[simp] theorem State.withHost_errCode (acts : List HostAction) (s : State) : (s.withHost acts).errCode = s.errCode := rfl
@[simp] theorem State.withHost_errPos (acts : List HostAction) (s : State) : (s.withHost acts).errPos = s.errPos := rfl
@[simp] theorem State.withHost_host (acts : List HostAction) (s : State) : (s.withHost acts).host = acts := rfl
@[simp] theorem State.withHost_initialised (acts : List HostAction) (s : State) : (s.withHost acts).initialised = s.initialised := rfl

@[simp] theorem State.raise_ib (e : HeaderError) (pos : StreamPos) (s : State) : (s.raise e pos).ib = s.ib := rfl
@[simp] theorem State.raise_len (e : HeaderError) (pos : StreamPos) (s : State) : (s.raise e pos).len = s.len := rfl
@[simp] theorem State.raise_fsm (e : HeaderError) (pos : StreamPos) (s : State) : (s.raise e pos).fsm = .sDone := rfl
@[simp] theorem State.raise_cur (e : HeaderError) (pos : StreamPos) (s : State) : (s.raise e pos).cur = s.cur := rfl
@[simp] theorem State.raise_f (e : HeaderError) (pos : StreamPos) (s : State) : (s.raise e pos).f = s.f := rfl
@[simp] theorem State.raise_w (e : HeaderError) (pos : StreamPos) (s : State) : (s.raise e pos).w = s.w := rfl
@[simp] theorem State.raise_r (e : HeaderError) (pos : StreamPos) (s : State) : (s.raise e pos).r = s.r := rfl
@[simp] theorem State.raise_busy (e : HeaderError) (pos : StreamPos) (s : State) : (s.raise e pos).busy = false := rfl
@[simp] theorem State.raise_done (e : HeaderError) (pos : StreamPos) (s : State) : (s.raise e pos).done = true := rfl
@[simp] theorem State.raise_err (e : HeaderError) (pos : StreamPos) (s : State) : (s.raise e pos).err = true := rfl
@[simp] theorem State.raise_errCode (e : HeaderError) (pos : StreamPos) (s : State) : (s.raise e pos).errCode = e.code := rfl
@[simp] theorem State.raise_errPos (e : HeaderError) (pos : StreamPos) (s : State) : (s.raise e pos).errPos = pos := rfl
@[simp] theorem State.raise_host (e : HeaderError) (pos : StreamPos) (s : State) : (s.raise e pos).host = s.host := rfl
@[simp] theorem State.raise_initialised (e : HeaderError) (pos : StreamPos) (s : State) : (s.raise e pos).initialised = s.initialised := rfl

@[simp] theorem State.beginTransaction_ib (s : State) : (s.beginTransaction).ib = s.ib := rfl
@[simp] theorem State.beginTransaction_len (s : State) : (s.beginTransaction).len = s.len := rfl
@[simp] theorem State.beginTransaction_fsm (s : State) : (s.beginTransaction).fsm = .sLen := rfl
@[simp] theorem State.beginTransaction_cur (s : State) : (s.beginTransaction).cur = 0 := rfl
@[simp] theorem State.beginTransaction_f (s : State) : (s.beginTransaction).f = FieldRegs.zero := rfl
@[simp] theorem State.beginTransaction_w (s : State) : (s.beginTransaction).w = WorkRegs.zero := rfl
@[simp] theorem State.beginTransaction_r (s : State) : (s.beginTransaction).r = ResultRegs.zero := rfl
@[simp] theorem State.beginTransaction_busy (s : State) : (s.beginTransaction).busy = true := rfl
@[simp] theorem State.beginTransaction_done (s : State) : (s.beginTransaction).done = false := rfl
@[simp] theorem State.beginTransaction_err (s : State) : (s.beginTransaction).err = false := rfl
@[simp] theorem State.beginTransaction_errCode (s : State) : (s.beginTransaction).errCode = 0 := rfl
@[simp] theorem State.beginTransaction_errPos (s : State) : (s.beginTransaction).errPos = 0 := rfl
@[simp] theorem State.beginTransaction_host (s : State) : (s.beginTransaction).host = s.host := rfl
@[simp] theorem State.beginTransaction_initialised (s : State) : (s.beginTransaction).initialised = s.initialised := rfl

@[simp] theorem State.accept_ib (p : Ports) (s : State) : (s.accept p).ib = p.inData.bytes := rfl
@[simp] theorem State.accept_len (p : Ports) (s : State) : (s.accept p).len = p.inLen := rfl
@[simp] theorem State.accept_fsm (p : Ports) (s : State) : (s.accept p).fsm = .sLen := rfl
@[simp] theorem State.accept_cur (p : Ports) (s : State) : (s.accept p).cur = 0 := rfl
@[simp] theorem State.accept_f (p : Ports) (s : State) : (s.accept p).f = FieldRegs.zero := rfl
@[simp] theorem State.accept_w (p : Ports) (s : State) : (s.accept p).w = WorkRegs.zero := rfl
@[simp] theorem State.accept_r (p : Ports) (s : State) : (s.accept p).r = ResultRegs.zero := rfl
@[simp] theorem State.accept_busy (p : Ports) (s : State) : (s.accept p).busy = true := rfl
@[simp] theorem State.accept_done (p : Ports) (s : State) : (s.accept p).done = false := rfl
@[simp] theorem State.accept_err (p : Ports) (s : State) : (s.accept p).err = false := rfl
@[simp] theorem State.accept_errCode (p : Ports) (s : State) : (s.accept p).errCode = 0 := rfl
@[simp] theorem State.accept_errPos (p : Ports) (s : State) : (s.accept p).errPos = 0 := rfl
@[simp] theorem State.accept_host (p : Ports) (s : State) : (s.accept p).host = s.host := rfl
@[simp] theorem State.accept_initialised (p : Ports) (s : State) : (s.accept p).initialised = s.initialised := rfl

@[simp] theorem State.afterReset_ib (s : State) : (s.afterReset).ib = #v[0, 0, 0, 0, 0, 0, 0, 0, 0] := rfl
@[simp] theorem State.afterReset_len (s : State) : (s.afterReset).len = 0 := rfl
@[simp] theorem State.afterReset_fsm (s : State) : (s.afterReset).fsm = .sIdle := rfl
@[simp] theorem State.afterReset_cur (s : State) : (s.afterReset).cur = 0 := rfl
@[simp] theorem State.afterReset_f (s : State) : (s.afterReset).f = FieldRegs.zero := rfl
@[simp] theorem State.afterReset_w (s : State) : (s.afterReset).w = WorkRegs.zero := rfl
@[simp] theorem State.afterReset_r (s : State) : (s.afterReset).r = ResultRegs.zero := rfl
@[simp] theorem State.afterReset_busy (s : State) : (s.afterReset).busy = false := rfl
@[simp] theorem State.afterReset_done (s : State) : (s.afterReset).done = false := rfl
@[simp] theorem State.afterReset_err (s : State) : (s.afterReset).err = false := rfl
@[simp] theorem State.afterReset_errCode (s : State) : (s.afterReset).errCode = 0 := rfl
@[simp] theorem State.afterReset_errPos (s : State) : (s.afterReset).errPos = 0 := rfl
@[simp] theorem State.afterReset_host (s : State) : (s.afterReset).host = s.host := rfl
@[simp] theorem State.afterReset_initialised (s : State) : (s.afterReset).initialised = true := rfl

end Sys2Proof.Machine
end

