-- ==== Sys2Proof/Laws/Ops.lean ====
section
/-! SUPPORT. Everything each shared operation can do, said once: reading the cursor, looking up a bitrate, running a
step on an operand, beginning a transaction. -/

namespace Sys2Proof.Machine

/-- A read of a legal width that the captured bytes can serve. -/
theorem readThen_fits {w : Nat} {s : State} {body : BitVec w → State → State} (hw : 0 < w ∧ w ≤ 32)
    (hfit : s.cur.toNat + w ≤ s.availableBits) :
    readThen w s body = .next (body (memRead s.ib s.cur.toNat w) (s.advance w)) := by
  rw [readThen, if_neg (by omega), if_neg (by omega)]

/-- A read of a legal width past the captured bytes takes BufferExhausted at the cursor. -/
theorem readThen_exhausted {w : Nat} {s : State} {body : BitVec w → State → State} (hw : 0 < w ∧ w ≤ 32)
    (hpast : s.availableBits < s.cur.toNat + w) : readThen w s body = .next (s.raise .bufferExhausted s.cur) := by
  rw [readThen, if_neg (by omega), if_pos hpast]

/-- What a read of a legal width can do: take BufferExhausted, or run the step's body on the bits read. -/
theorem readThen_next {w : Nat} {s t : State} {body : BitVec w → State → State} (hw : 0 < w ∧ w ≤ 32)
    (h : readThen w s body = .next t) :
    (s.availableBits < s.cur.toNat + w ∧ t = s.raise .bufferExhausted s.cur) ∨
      (s.cur.toNat + w ≤ s.availableBits ∧ t = body (memRead s.ib s.cur.toNat w) (s.advance w)) := by
  by_cases hfit : s.cur.toNat + w ≤ s.availableBits
  · rw [readThen_fits hw hfit] at h
    exact .inr ⟨hfit, (Host.Outcome.next.inj h).symm⟩
  · rw [readThen_exhausted hw (by omega)] at h
    exact .inl ⟨by omega, (Host.Outcome.next.inj h).symm⟩

/-- With nine bytes captured all 72 bits are available. -/
theorem availableBits_full {s : State} (h : 9 ≤ s.len.toNat) : s.availableBits = 72 := by
  rw [State.availableBits, Nat.min_eq_right h]

/-- No more than the 72 bits of the buffer are ever available. -/
theorem availableBits_le (s : State) : s.availableBits ≤ 72 := by
  unfold State.availableBits
  omega

theorem takeField_busy {w : Nat} {v : BitVec w} {body : BitVec w → State → State} {s : State} (h : s.busy = true) :
    takeField w v body s = body v (s.advance w) := by
  rw [takeField, if_pos h]

theorem takeField_over {w : Nat} {v : BitVec w} {body : BitVec w → State → State} {s : State} (h : s.busy = false) :
    takeField w v body s = s := by
  rw [takeField, if_neg (by simp [h])]

theorem takeStep_busy {body : State → State} {s : State} (h : s.busy = true) : takeStep body s = body s := by
  rw [takeStep, if_pos h]

theorem takeStep_over {body : State → State} {s : State} (h : s.busy = false) : takeStep body s = s := by
  rw [takeStep, if_neg (by simp [h])]

/-- What a bitrate lookup can answer (spec/44_tail_and_assembly.md R250). -/
theorem bitrateLookup_cases (c : Nat) (i : BitVec 4) :
    (bitrateEntry c i.toNat = none ∧ bitrateLookup c i = .error .missingBitrateTable) ∨
      (bitrateEntry c i.toNat = some 0 ∧ bitrateLookup c i = .error .invalidBitrateIndex) ∨
      (∃ v, v ≠ 0 ∧ bitrateEntry c i.toNat = some v ∧ bitrateLookup c i = .ok (BitVec.ofNat 32 v)) := by
  unfold bitrateLookup
  cases hb : bitrateEntry c i.toNat with
  | none => simp
  | some v =>
    by_cases hv : v = 0
    · exact .inr (.inl ⟨by rw [hv], if_pos hv⟩)
    · exact .inr (.inr ⟨v, hv, rfl, if_neg hv⟩)

/-- Beginning a transaction twice is beginning it once. -/
@[simp] theorem State.beginTransaction_idem (s : State) : s.beginTransaction.beginTransaction = s.beginTransaction := rfl

/-- An accept leaves a header none of whose field steps has been performed. -/
@[simp] theorem State.atHeader_accept (p : Ports) (s : State) : (s.accept p).atHeader = true := by
  simp [State.atHeader, State.accept]

theorem State.eq_beginTransaction_of_atHeader {s : State} (h : s.atHeader = true) : s = s.beginTransaction := by
  simpa [State.atHeader] using h

/-- The host actions to come do not say whether a header has begun. -/
@[simp] theorem State.atHeader_withHost (acts : List HostAction) (s : State) :
    (s.withHost acts).atHeader = s.atHeader := by
  simp only [State.atHeader, decide_eq_decide]
  constructor
  · intro h
    have h2 := congrArg (State.withHost s.host) h
    exact h2
  · intro h
    have h2 := congrArg (State.withHost acts) h
    exact h2

/-- Setting the host actions twice. -/
@[simp] theorem State.withHost_withHost (acts acts' : List HostAction) (s : State) :
    (s.withHost acts).withHost acts' = s.withHost acts' := rfl

/-- Setting the host actions to what they are. -/
@[simp] theorem State.withHost_self (s : State) : s.withHost s.host = s := rfl

end Sys2Proof.Machine
end

