-- ==== Sys2Proof/Laws/Fsm.lean ====
section
/-! SUPPORT. The field step of each `STATE` value, what one clock edge can do, and how a transaction runs. -/

namespace Sys2Proof.Machine

theorem fieldStep_sIdle {s : State} (h : s.fsm = .sIdle) : fieldStep s = .fault .noFieldStep := by
  simp only [fieldStep, h]

theorem fieldStep_sLen {s : State} (h : s.fsm = .sLen) : fieldStep s = .next (lenStep s) := by
  simp only [fieldStep, h]

theorem fieldStep_sSync {s : State} (h : s.fsm = .sSync) : fieldStep s = readThen 12 s syncBody := by
  simp only [fieldStep, h]

theorem fieldStep_sCodec {s : State} (h : s.fsm = .sCodec) : fieldStep s = readThen 4 s codecBody := by
  simp only [fieldStep, h]

theorem fieldStep_sAnc {s : State} (h : s.fsm = .sAnc) : fieldStep s = readThen 1 s ancBody := by
  simp only [fieldStep, h]

theorem fieldStep_sNn {s : State} (h : s.fsm = .sNn) : fieldStep s = readThen 3 s nnBody := by
  simp only [fieldStep, h]

theorem fieldStep_sProf {s : State} (h : s.fsm = .sProf) : fieldStep s = readThen 3 s profBody := by
  simp only [fieldStep, h]

theorem fieldStep_sSr {s : State} (h : s.fsm = .sSr) : fieldStep s = readThen 4 s srBody := by
  simp only [fieldStep, h]

theorem fieldStep_sCrc1 {s : State} (h : s.fsm = .sCrc1) : fieldStep s = skipThen 8 s crc1Body := by
  simp only [fieldStep, h]

theorem fieldStep_sDispatch {s : State} (h : s.fsm = .sDispatch) : fieldStep s = .next (dispatchStep s) := by
  simp only [fieldStep, h]

theorem fieldStep_sACfg {s : State} (h : s.fsm = .sACfg) : fieldStep s = readThen 7 s aCfgBody := by
  simp only [fieldStep, h]

theorem fieldStep_sBSbt {s : State} (h : s.fsm = .sBSbt) : fieldStep s = readThen 2 s sbtBody := by
  simp only [fieldStep, h]

theorem fieldStep_sB0Obj {s : State} (h : s.fsm = .sB0Obj) : fieldStep s = readThen 7 s b0ObjBody := by
  simp only [fieldStep, h]

theorem fieldStep_sB0Obr {s : State} (h : s.fsm = .sB0Obr) : fieldStep s = readThen 4 s b0ObrBody := by
  simp only [fieldStep, h]

theorem fieldStep_sB1Cfg {s : State} (h : s.fsm = .sB1Cfg) : fieldStep s = readThen 7 s b1CfgBody := by
  simp only [fieldStep, h]

theorem fieldStep_sB1Bbr {s : State} (h : s.fsm = .sB1Bbr) : fieldStep s = readThen 4 s b1BbrBody := by
  simp only [fieldStep, h]

theorem fieldStep_sB1Obj {s : State} (h : s.fsm = .sB1Obj) : fieldStep s = readThen 7 s b1ObjBody := by
  simp only [fieldStep, h]

theorem fieldStep_sB1Obr {s : State} (h : s.fsm = .sB1Obr) : fieldStep s = readThen 4 s b1ObrBody := by
  simp only [fieldStep, h]

theorem fieldStep_sCOrd {s : State} (h : s.fsm = .sCOrd) : fieldStep s = readThen 4 s ordBody := by
  simp only [fieldStep, h]

theorem fieldStep_sRes {s : State} (h : s.fsm = .sRes) : fieldStep s = readThen 2 s (resBody s.cur) := by
  simp only [fieldStep, h]

theorem fieldStep_sBr {s : State} (h : s.fsm = .sBr) : fieldStep s = readThen 4 s (brBody s.cur) := by
  simp only [fieldStep, h]

theorem fieldStep_sCrc2 {s : State} (h : s.fsm = .sCrc2) : fieldStep s = skipThen 8 s crc2Body := by
  simp only [fieldStep, h]

theorem fieldStep_sCommit {s : State} (h : s.fsm = .sCommit) : fieldStep s = .next (commitStep s) := by
  simp only [fieldStep, h]

theorem fieldStep_sDone {s : State} (h : s.fsm = .sDone) : fieldStep s = .fault .noFieldStep := by
  simp only [fieldStep, h]

/-- What one clock edge can do when it gives a next state: reset, stall, perform a field step, accept, or hold. -/
theorem clockEdge_next {p : Ports} {stall : Bool} {s t : State} (h : clockEdge p stall s = .next t) :
    (p.rst = true ∧ t = s.afterReset) ∨
      (p.rst = false ∧ s.busy = true ∧ stall = true ∧ t = s) ∨
      (p.rst = false ∧ s.busy = true ∧ stall = false ∧ fieldStep s = .next t) ∨
      (p.rst = false ∧ s.busy = false ∧ p.start = true ∧ s.initialised = true ∧ t = s.accept p) ∨
      (p.rst = false ∧ s.busy = false ∧ p.start = false ∧ t = s) := by
  revert h
  unfold clockEdge
  cases p.rst <;> cases s.busy <;> cases stall <;> cases p.start <;> cases s.initialised <;>
    simp [eq_comm]

theorem runSteps_zero (s : State) : runSteps 0 s = .next s := rfl

theorem runSteps_over {s : State} (n : Nat) (h : s.busy = false) : runSteps n s = .next s := by
  cases n with
  | zero => rfl
  | succ n => simp [runSteps, h]

theorem runSteps_busy {s t : State} (n : Nat) (h : s.busy = true) (ht : fieldStep s = .next t) :
    runSteps (n + 1) s = runSteps n t := by
  simp [runSteps, h, ht]

/-- WAIT after an accept: the meaning of the captured header, or its field steps when it is of no form. -/
theorem waitDone_accept (s : State) (p : Ports) :
    waitDone (s.accept p) =
      match p.inData.decode with
      | .form i => exec i (s.accept p)
      | .reject _ => finishTransaction (s.accept p) := by
  cases h : p.inData.decode <;>
    simp [waitDone, State.atHeader_accept, fetchAndExec, decodeBytes_toList, h]

/-- What a step does, by what the outside does next. -/
theorem step_of_host (s : State) :
    (s.host = [] ∧ step s = waitDone s) ∨
      (∃ p stall rest, s.host = .edge p stall :: rest ∧ step s = clockEdge p stall (s.withHost rest)) ∨
      (∃ p rest, s.host = .edgeWhenReady p :: rest ∧
        step s = if s.busy then waitDone s else clockEdge p false (s.withHost rest)) ∨
      (∃ rest, s.host = .wait :: rest ∧
        step s = if s.busy || s.done then waitDone (s.withHost rest) else .next s) := by
  unfold step
  split
  · next p stall rest h => exact .inr (.inl ⟨p, stall, rest, h, rfl⟩)
  · next p rest h => exact .inr (.inr (.inl ⟨p, rest, h, rfl⟩))
  · next rest h => exact .inr (.inr (.inr ⟨rest, h, rfl⟩))
  · next h => exact .inl ⟨h, rfl⟩

end Sys2Proof.Machine
end

