-- ==== Sys2Proof/Laws/PerInstr.lean ====
section
/-! SUPPORT. Facts made per constructor of Instr: every encoded instruction has the fixed prefix. -/

namespace Sys2Proof.Laws.EncodedPrefix

/-- The encoded instruction has sync 0xFFF, codec_id 2 and ancillary_flag 0 (spec/30_encoding.md R101). -/
def Statement (i : Instr) : Prop :=
  (encode i).slice 60 12 = 0xFFF#12 ∧ (encode i).slice 56 4 = 2#4 ∧ (encode i).slice 55 1 = 0#1

theorem of_prefix {nn prof : BitVec 3} {sr : BitVec 4} {crc1 : Byte} {i : Instr}
    (e : encodeFront i = encodePrefix nn prof sr crc1) : Statement i :=
  have h := slices_of_prefix nn prof sr crc1 (encodeRest i) (encode i) (by rw [encode, e])
  ⟨h.1, h.2.1, h.2.2.1⟩

theorem hdrCh (nn : BitVec 3) (sr : BitVec 4) (crc1 : Byte) (cfg : BitVec 7) (res : BitVec 2) (br : BitVec 4)
    (crc2 : Byte) (pad : BitVec 16) :
    Statement (.hdrCh nn sr crc1 cfg res br crc2 pad) :=
  of_prefix rfl

theorem hdrObj (nn : BitVec 3) (sr : BitVec 4) (crc1 : Byte) (obj : BitVec 7) (obr : BitVec 4) (res : BitVec 2)
    (crc2 : Byte) (pad : BitVec 14) :
    Statement (.hdrObj nn sr crc1 obj obr res crc2 pad) :=
  of_prefix rfl

theorem hdrChobj (nn : BitVec 3) (sr : BitVec 4) (crc1 : Byte) (cfg : BitVec 7) (bbr : BitVec 4) (obj : BitVec 7)
    (obr : BitVec 4) (res : BitVec 2) (crc2 : Byte) (pad : BitVec 3) :
    Statement (.hdrChobj nn sr crc1 cfg bbr obj obr res crc2 pad) :=
  of_prefix rfl

theorem hdrHoa (nn : BitVec 3) (sr : BitVec 4) (crc1 : Byte) (ord : BitVec 4) (res : BitVec 2) (br : BitVec 4)
    (crc2 : Byte) (pad : BitVec 19) :
    Statement (.hdrHoa nn sr crc1 ord res br crc2 pad) :=
  of_prefix rfl

theorem hdrRsvSbt (nn : BitVec 3) (sr : BitVec 4) (crc1 : Byte) (sbt : BitVec 2) (rest : BitVec 35) :
    Statement (.hdrRsvSbt nn sr crc1 sbt rest) :=
  of_prefix rfl

theorem hdrRsvProf3 (nn : BitVec 3) (sr : BitVec 4) (crc1 : Byte) (rest : BitVec 37) :
    Statement (.hdrRsvProf3 nn sr crc1 rest) :=
  of_prefix rfl

theorem hdrRsvProf4to7 (nn prof : BitVec 3) (sr : BitVec 4) (crc1 : Byte) (rest : BitVec 37) :
    Statement (.hdrRsvProf4to7 nn prof sr crc1 rest) :=
  of_prefix rfl

end Sys2Proof.Laws.EncodedPrefix
end

