-- ==== Sys2Proof/Tests/Slice0.lean ====
section
/-! SUPPORT. Tests on fixed values, taken from spec/ (its encodings, tables and vectors), and witnesses that the
hypotheses of each obligation can be met together. -/

namespace Sys2Proof.Tests

open Sys2Proof.Machine

/-! ## Helpers -/

/-- The ports of a start with the header word and length given. -/
def startPorts (h : HeaderWord) (len : BitVec 4) : Ports :=
  { rst := false, start := true, inData := h, inLen := len }

/-- The ports of an edge at which the host asks nothing. -/
def idlePorts : Ports :=
  { rst := false, start := false, inData := 0, inLen := 0 }

/-- The state an accept leaves after reset. -/
def started (h : HeaderWord) (len : BitVec 4) : State :=
  State.reset.accept (startPorts h len)

/-- The next state of an outcome, reset where there is none. -/
def nextOf (o : Host.Outcome State Fault Refusal) : State :=
  match o with
  | .next t => t
  | .fault _ => State.reset
  | .refused _ => State.reset

/-- Whether an outcome is the next state given. -/
def answers (o : Host.Outcome State Fault Refusal) (t : State) : Bool :=
  match o with
  | .next u => decide (u = t)
  | .fault _ => false
  | .refused _ => false

theorem eq_next_of_answers {o : Host.Outcome State Fault Refusal} {t : State} (h : answers o t = true) :
    o = .next t := by
  cases o with
  | next u => exact congrArg _ (of_decide_eq_true h)
  | fault _ => cases h
  | refused _ => cases h

/-- Error code, error position and cursor of an outcome that took a decode error. -/
def errorOf (o : Host.Outcome State Fault Refusal) : Option (Nat × Nat × Nat) :=
  match o with
  | .next t => if t.done && t.err then some (t.errCode.toNat, t.errPos.toNat, t.cur.toNat) else none
  | .fault _ => none
  | .refused _ => none

/-- Content type, rate, resolution bits, format, channels, objects, total, order, bitrate and cursor of a success. -/
def resultOf (o : Host.Outcome State Fault Refusal) : Option (List Nat) :=
  match o with
  | .next t =>
    if t.resultValid then
      some [t.r.contentType.toNat, t.r.sampleRate.toNat, t.r.resBits.toNat, t.r.sampleFmt.toNat, t.r.chCount.toNat,
        t.r.objCount.toNat, t.r.totalCh.toNat, t.r.ambOrder.toNat, t.r.totalBitrate.toNat, t.cur.toNat]
    else none
  | .fault _ => none
  | .refused _ => none

/-- The layout valid bit and tag of an outcome. -/
def layoutOfResult (o : Host.Outcome State Fault Refusal) : Bool × Nat :=
  ((nextOf o).r.layoutValid, (nextOf o).r.layoutTag.toNat)

/-- The WAIT step after a start after reset. -/
def runWord (h : HeaderWord) (len : BitVec 4) : Host.Outcome State Fault Refusal :=
  step ((started h len).withHost [.wait])

/-! ## Well-formedness: one ill-formed term for each check -/

theorem test_wf_refuses_sbt_0 : Instr.wf (.hdrRsvSbt 0 2 0 0 0) = false := by decide
theorem test_wf_refuses_sbt_1 : Instr.wf (.hdrRsvSbt 0 2 0 1 0) = false := by decide
theorem test_wf_refuses_profile_3 : Instr.wf (.hdrRsvProf4to7 0 3 2 0 0) = false := by decide
theorem test_wf_accepts_the_selectors :
    Instr.wf (.hdrRsvSbt 0 2 0 2 0) = true ∧ Instr.wf (.hdrRsvSbt 0 2 0 3 0) = true ∧
      Instr.wf (.hdrRsvProf4to7 0 4 2 0 0) = true ∧ Instr.wf (.hdrRsvProf4to7 0 7 2 0 0) = true := by decide

/-! ## Decoding: words written out bit by bit from the patterns of spec/30_encoding.md R108 -/

/-- `11111111111100100nnn000ffffkkkkkkkkgggggggrrbbbbqqqqqqqqxxxxxxxxxxxxxxxx` -/
theorem test_decode_ch :
    decodeTableWord 72 0b111111111111_0010_0_101_000_0010_10100110_1001101_10_1001_00111001_1011111011101111 =
      some (.hdrCh 5 2 0xA6 0x4D 2 9 0x39 0xBEEF) := by decide

/-- `11111111111100100nnn001ffffkkkkkkkk00ooooooopppprrqqqqqqqqxxxxxxxxxxxxxx` -/
theorem test_decode_obj :
    decodeTableWord 72 0b111111111111_0010_0_110_001_0111_01011001_00_1100101_1010_01_11000110_10101011001110 =
      some (.hdrObj 6 7 0x59 0x65 10 1 0xC6 0x2ACE) := by decide

/-- `11111111111100100nnn001ffffkkkkkkkk01gggggggbbbbooooooopppprrqqqqqqqqxxx` -/
theorem test_decode_chobj :
    decodeTableWord 72 0b111111111111_0010_0_011_001_0001_11100001_01_0001101_0110_1001011_1001_10_10001101_101 =
      some (.hdrChobj 3 1 0xE1 0x0D 6 0x4B 9 2 0x8D 5) := by decide

/-- `11111111111100100nnn010ffffkkkkkkkkaaaarrbbbbqqqqqqqqxxxxxxxxxxxxxxxxxxx` -/
theorem test_decode_hoa :
    decodeTableWord 72 0b111111111111_0010_0_100_010_1011_00011110_1101_01_0101_10110010_1011100101011111110 =
      some (.hdrHoa 4 11 0x1E 13 1 5 0xB2 0x5CAFE) := by decide

/-- `11111111111100100nnn001ffffkkkkkkkk1xxxxxxxxxxxxxxxxxxxxxxxxxxxxxxxxxxxx`, selector 2 and selector 3. -/
theorem test_decode_rsv_sbt :
    decodeTableWord 72 0b111111111111_0010_0_001_001_1000_10010011_10_11011011110101011011011111011101111 =
      some (.hdrRsvSbt 1 8 0x93 2 0x6DEADBEEF) ∧
    decodeTableWord 72 0b111111111111_0010_0_001_001_1000_10010011_11_00000000000000000000000000000000001 =
      some (.hdrRsvSbt 1 8 0x93 3 1) := by decide

/-- `11111111111100100nnn011ffffkkkkkkkkxxxxxxxxxxxxxxxxxxxxxxxxxxxxxxxxxxxxx` -/
theorem test_decode_rsv_prof3 :
    decodeTableWord 72 0b111111111111_0010_0_010_011_0100_01111100_1011001111000100110101011110011011110 =
      some (.hdrRsvProf3 2 4 0x7C 0x16789ABCDE) := by decide

/-- `11111111111100100nnn1xxffffkkkkkkkkxxxxxxxxxxxxxxxxxxxxxxxxxxxxxxxxxxxxx`, profile 5. -/
theorem test_decode_rsv_prof4to7 :
    decodeTableWord 72 0b111111111111_0010_0_111_101_0011_00110101_0000100100011010001010110011110001001 =
      some (.hdrRsvProf4to7 7 5 3 0x35 0x123456789) := by decide

/-- The prefix checks in the order of R108, and fewer than nine bytes (vectors S4, P1, P2, P3, P15, S5). -/
theorem test_decode_rejects :
    HeaderWord.decode 0xFFE200400050000000 = .reject .syncMismatch ∧
    HeaderWord.decode 0xFFF100400050000000 = .reject .unsupportedCodec ∧
    HeaderWord.decode 0xFFFF00400050000000 = .reject .unsupportedCodec ∧
    HeaderWord.decode 0xFFF280400050000000 = .reject .reservedBitViolation ∧
    HeaderWord.decode 0x7FF380400050000000 = .reject .syncMismatch ∧
    decodeBytes [0xFF, 0xF2, 0x00, 0x40, 0x00, 0x50, 0x00, 0x00] = .reject .tooShort := by decide

/-- Bytes are laid out first byte highest (R114). -/
theorem test_decode_bytes_in_order :
    decodeBytes [0xFF, 0xF2, 0x00, 0x54, 0xA0, 0x50, 0x5A, 0xBE, 0xEF] =
      .form (.hdrCh 0 2 0xA5 1 1 0 0x5A 0xBEEF) := by decide

/-- The assembler: the example of R115, vector B7, and operands that do not fit (R113). -/
theorem test_assemble :
    assembleHeader (.ch 0 2 0 1 1 0 0 0) = some 0xFFF200400050000000 ∧
    assembleHeader (.chobj 0 2 0 2 7 127 11 1 0 0) = some 0xFFF202400827FF6800 ∧
    assembleHeader (.hoa 0 2 0 0 1 0 0 0) = some 0xFFF204400080000000 ∧
    assembleHeader (.obj 0 2 0 3 2 1 0 0) = some 0xFFF202400032400000 ∧
    assembleHeader (.raw 0xFF 0xE2 0 0x40 0 0x50 0 0 0) = some 0xFFE200400050000000 ∧
    assembleHeader (.ch 8 2 0 1 1 0 0 0) = none ∧
    assembleHeader (.raw 0xFF 0xE2 0 0x40 0 0x50 0 0 256) = none := by decide

/-- A statement without `pad` has 0 there (R113; the example of R115 and vector S2 are written so), and with it the
trailing bits written (vector S1b). -/
theorem test_assemble_pad_is_optional :
    assembleHeader (.ch 0 2 0 1 1 0 0) = some 0xFFF200400050000000 ∧
    assembleHeader (.obj 0 2 0 3 2 1 0) = some 0xFFF202400032400000 ∧
    assembleHeader (.chobj 0 2 0 2 7 127 11 1 0) = some 0xFFF202400827FF6800 ∧
    assembleHeader (.hoa 0 2 0 0 1 0 0) = some 0xFFF204400080000000 ∧
    assembleHeader (.ch 0 2 0xA5 1 1 0 0x5A 0xBEEF) = some 0xFFF20054A0505ABEEF := by decide

/-! ## Tables and codes -/

/-- The sampling rates (spec/20_memory.md R66), 8000 the last. -/
theorem test_sampling_rates :
    samplingRate 0 = some 192000 ∧ samplingRate 2 = some 48000 ∧ samplingRate 3 = some 44100 ∧
      samplingRate 6 = some 22050 ∧ samplingRate 8 = some 8000 ∧ samplingRate 9 = none := by decide

/-- Every table has sixteen entries, and its zero placeholders follow its other entries (spec/20_memory.md R67, R68). -/
theorem test_bitrate_tables_end_in_placeholders :
    romBr.length = 14 ∧ ∀ t ∈ romBr.reduceOption, t.length = 16 ∧
      (t.dropWhile (fun v => decide (v ≠ 0))).all (fun v => decide (v = 0)) = true := by decide

/-- Each configuration index stands in one row of the named multichannel table (spec/20_memory.md R72, R81). -/
theorem test_named_multichannel_keys_are_distinct :
    (romNmc.map fun row => row.2.1).Nodup ∧ romNmc.length = 10 ∧ romChmap.length = 14 := by decide

/-- The part of `P_NAMED_LAYOUT` the spec fixes (spec/00_scope.md R7). -/
theorem test_fixed_named_layouts :
    [1, 2, 3, 5].all namedLayout = true ∧ [4, 6, 11, 12, 13, 14].any namedLayout = false := by decide

/-- The 24 codes of `STATE` (spec/10_state.md R26) and some error codes (spec/60_exceptions.md R300). -/
theorem test_codes :
    ([Fsm.sIdle, .sLen, .sSync, .sCodec, .sAnc, .sNn, .sProf, .sSr, .sCrc1, .sDispatch, .sACfg, .sBSbt, .sB0Obj,
      .sB0Obr, .sB1Cfg, .sB1Bbr, .sB1Obj, .sB1Obr, .sCOrd, .sRes, .sBr, .sCrc2, .sCommit, .sDone].map
        fun x => x.code.toNat) = List.range 24 ∧
    HeaderError.syncMismatch.code = 1 ∧ HeaderError.bufferExhausted.code = 8 ∧
      HeaderError.invalidBitrateIndex.code = 13 := by decide

/-! ## The forms: vectors of spec/95_test_vectors.md, as the step after placing the word -/

/-- Vector S1b, with its layout tag; the CRC bytes and the pad do not matter. -/
theorem test_ch_s1b :
    resultOf (step (State.reset.withFetchWord 72 0xFFF20054A0505ABEEF)) =
      some [1, 48000, 16, 2, 2, 0, 2, 0, 24000, 56] ∧
    layoutOfResult (step (State.reset.withFetchWord 72 0xFFF20054A0505ABEEF)) = (true, 1) := by decide

/-- Vectors A5 (22.2 has no table) and A6 (4.0 has no layout). -/
theorem test_ch_a5_a6 :
    errorOf (step (State.reset.withFetchWord 72 0xFFF200400150000000)) = some (11, 44, 48) ∧
    layoutOfResult (step (State.reset.withFetchWord 72 0xFFF200400190000000)) = (false, 0) := by decide

/-- Vector B2: the largest object-only bitrate. -/
theorem test_obj_b2 :
    resultOf (step (State.reset.withFetchWord 72 0xFFF2024007FB400000)) =
      some [2, 48000, 16, 2, 0, 128, 128, 0, 24576000, 58] := by decide

/-- Vector B6: the bitrate error comes before the resolution error. -/
theorem test_obj_b6 :
    errorOf (step (State.reset.withFetchWord 72 0xFFF20240000FFF0000)) = some (13, 44, 48) := by decide

/-- Vector B7, with its layout tag. -/
theorem test_chobj_b7 :
    resultOf (step (State.reset.withFetchWord 72 0xFFF202400827FF6800)) =
      some [3, 48000, 16, 2, 6, 128, 134, 0, 25296000, 69] ∧
    layoutOfResult (step (State.reset.withFetchWord 72 0xFFF202400827FF6800)) = (true, 2) := by decide

/-- Vectors B8 (a bed without a row has no channels) and B11 (10.2 has no table). -/
theorem test_chobj_b8_b11 :
    resultOf (step (State.reset.withFetchWord 72 0xFFF2024008D5FF6800)) =
      some [3, 48000, 16, 2, 0, 128, 128, 0, 25472000, 69] ∧
    errorOf (step (State.reset.withFetchWord 72 0xFFF202400840000800)) = some (11, 44, 48) := by decide

/-- Vector S3. -/
theorem test_hoa_s3 :
    resultOf (step (State.reset.withFetchWord 72 0xFFF204400080000000)) =
      some [4, 48000, 16, 2, 4, 0, 4, 1, 48000, 53] := by decide

/-- Vectors C3 (order 3) and C4 (order 4). -/
theorem test_hoa_c3_c4 :
    resultOf (step (State.reset.withFetchWord 72 0xFFF2044004A8000000)) =
      some [4, 48000, 16, 2, 16, 0, 16, 3, 896000, 53] ∧
    errorOf (step (State.reset.withFetchWord 72 0xFFF204400680000000)) = some (10, 35, 39) := by decide

/-- Selectors 2 and 3 (spec/42_profile1_object.md R213). -/
theorem test_rsv_sbt :
    errorOf (step (State.reset.withFetchWord 72 0xFFF202401000000000)) = some (9, 35, 37) ∧
    errorOf (step (State.reset.withFetchWord 72 0xFFF202401800000000)) = some (9, 35, 37) := by decide

/-- Vector P8. -/
theorem test_rsv_prof3_p8 :
    errorOf (step (State.reset.withFetchWord 72 0xFFF206400000000000)) = some (6, 20, 35) := by decide

/-- Vectors P9, and P10: the sampling-rate error comes first. -/
theorem test_rsv_prof4to7_p9_p10 :
    errorOf (step (State.reset.withFetchWord 72 0xFFF20E400000000000)) = some (6, 20, 35) ∧
    errorOf (step (State.reset.withFetchWord 72 0xFFF20B800000000000)) = some (4, 23, 27) := by decide

/-- Headers of no form take their prefix error (vectors S4, P1, P3), and S5 BufferExhausted. -/
theorem test_prefix_errors :
    errorOf (runWord 0xFFE200400050000000 9) = some (1, 0, 12) ∧
    errorOf (runWord 0xFFF100400050000000 9) = some (2, 12, 16) ∧
    errorOf (runWord 0xFFF280400050000000 9) = some (3, 16, 17) ∧
    errorOf (runWord 0xFFF200400050000000 8) = some (8, 0, 0) := by decide

/-- `LEN` 15 means nine bytes (vector P14). -/
theorem test_length_15 :
    resultOf (runWord 0xFFF200400050000000 15) = some [1, 48000, 16, 2, 2, 0, 2, 0, 24000, 56] := by decide

/-- The field at offset 23 with `IB[2] = 0x00`, `IB[3] = 0x40` (the example of spec/20_memory.md R63). -/
theorem test_mem_read_crosses_bytes :
    memRead #v[0, 0, 0x00, 0x40, 0, 0, 0, 0, 0] 23 4 = 2 := by decide

/-- A DECODE waits for `BUSY = 0`: the busy block first ends its transaction (spec/95_test_vectors.md program 4). -/
theorem test_decode_waits_while_busy :
    (nextOf (step ((started 0xFFF200400050000000 9).withHost [.edgeWhenReady (startPorts 0 9)]))).host =
      [.edgeWhenReady (startPorts 0 9)] ∧
    (nextOf (step ((started 0xFFF200400050000000 9).withHost [.edgeWhenReady (startPorts 0 9)]))).done = true := by
  decide

/-! ## Witnesses: the hypotheses of each obligation met together (`answers o t` says `o = .next t`, by
`eq_next_of_answers`) -/

/-- The state after the accept of vector S1. -/
def s1 : State := started 0xFFF200400050000000 9

/-- The header of vector S1. -/
def i1 : Instr := .hdrCh 0 2 0 1 1 0 0 0

/-- The state of vector S1 about to commit. -/
def s1Commit : State := nextOf (runSteps 13 s1)

/-- A state that meets the invariant while a transaction runs, whatever the outside does next. -/
theorem s1_inv (acts : List HostAction) : (s1.withHost acts).Inv where
  initialised := rfl
  busyIff := by constructor <;> intro _ <;> first | rfl | exact ⟨nofun, nofun⟩
  doneIff := by constructor <;> intro h <;> cases h
  errDone := by intro h; cases h
  noResult := fun _ => rfl
  result := by intro h; cases h
  noError := fun _ => ⟨rfl, rfl⟩
  errorCode := by intro h; cases h
  stage := ⟨rfl, rfl⟩

/-- The same one field step later. -/
theorem s1_sync_inv : (s1.goTo .sSync).Inv where
  initialised := rfl
  busyIff := by constructor <;> intro _ <;> first | rfl | exact ⟨nofun, nofun⟩
  doneIff := by constructor <;> intro h <;> cases h
  errDone := by intro h; cases h
  noResult := fun _ => rfl
  result := by intro h; cases h
  noError := fun _ => ⟨rfl, rfl⟩
  errorCode := by intro h; cases h
  stage := ⟨rfl, by decide, rfl⟩

theorem witness_DecodeOfEncodeIsTheHeader :
    Instr.wf (.hdrRsvSbt 7 15 255 2 0) = true ∧ Instr.wf (.hdrRsvProf4to7 7 4 15 255 0) = true ∧ i1.wf = true := by
  decide

theorem witness_DecodedWordIsItsEncoding : HeaderWord.decode 0xFFF200400050000000 = .form i1 := by decide

theorem witness_MemReadTakesTheStreamBits : 23 + 4 ≤ 72 ∧ 3 < 4 ∧ 69 + 3 ≤ 72 ∧ 2 < 3 := by decide

theorem witness_CapturedWordIsReadFromItsTop :
    71 < 72 ∧ streamBit (HeaderWord.bytes 1) 71 = true ∧ streamBit (HeaderWord.bytes (1 <<< 71)) 0 = true := by decide

/-- Each operand at the largest value that fits, and one above it. -/
theorem witness_AssemblerChecksEveryOperand :
    assembleHeader (.chobj 7 15 255 127 15 127 15 3 255 7) =
      some (encode (.hdrChobj 7 15 255 127 15 127 15 3 255 7)) ∧
    assembleHeader (.chobj 8 15 255 127 15 127 15 3 255 7) = none ∧
    assembleHeader (.chobj 7 15 255 127 15 127 15 3 255 8) = none ∧
    assembleHeader (.ch 7 15 255 127 3 15 255 65535) = some (encode (.hdrCh 7 15 255 127 3 15 255 65535)) ∧
    assembleHeader (.ch 7 15 255 127 3 15 255 65536) = none ∧
    assembleHeader (.obj 7 15 255 127 15 3 255 16383) = some (encode (.hdrObj 7 15 255 127 15 3 255 16383)) ∧
    assembleHeader (.obj 7 15 255 128 15 3 255 16383) = none ∧
    assembleHeader (.hoa 7 15 255 15 3 15 255 524287) = some (encode (.hdrHoa 7 15 255 15 3 15 255 524287)) ∧
    assembleHeader (.hoa 7 15 255 16 3 15 255 524287) = none ∧
    assembleHeader (.raw 255 255 255 255 255 255 255 255 255) = some (-1) ∧
    assembleHeader (.raw 255 255 255 255 256 255 255 255 255) = none := by decide

theorem witness_StepRunsTheDecodedHeader :
    s1.busy = true ∧ s1.atHeader = true ∧ decodeBytes s1.ib.toList = .form i1 ∧ s1.host = [] ∧
      (s1.withHost [.wait]).host = [.wait] ∧ (s1.withHost [.wait]).atHeader = true := by decide

theorem witness_PlacedWordIsRunNext : decodeTableWord 72 0xFFF200400050000000 = some i1 := by decide

theorem witness_FieldStepsRunTheMeaningOfTheHeader :
    i1.wf = true ∧ (startPorts 0xFFF200400050000000 9).inData = encode i1 := by decide

theorem witness_AcceptCapturesAndClears :
    (startPorts 1 9).rst = false ∧ (startPorts 1 9).start = true ∧ State.reset.busy = false ∧
      State.reset.initialised = true := by decide

theorem witness_StartWhileBusyIsIgnored :
    s1.busy = true ∧ (startPorts 1 9).rst = false ∧ idlePorts.rst = false := by decide

theorem witness_BusyEdgeStallsOrPerformsTheStep : s1.busy = true ∧ idlePorts.rst = false := by decide

theorem witness_ResetClearsEveryRegister :
    ({ startPorts 1 9 with rst := true } : Ports).rst = true ∧
      answers (clockEdge { startPorts 1 9 with rst := true } false s1) State.reset = true := by decide

theorem witness_WaitingStatesHold :
    (nextOf (runSteps 14 s1)).busy = false ∧ idlePorts.rst = false ∧ idlePorts.start = false := by decide

theorem witness_StartBeforeTheFirstResetIsRefused :
    (startPorts 1 9).rst = false ∧ (startPorts 1 9).start = true ∧
      ({ State.reset with initialised := false } : State).busy = false := by decide

/-- The DECODE of vector P14, whose length is the largest `in_len` carries, at an idle and at a busy block; RESET. -/
theorem witness_HostStatementsDriveThePorts :
    assembleHeader (.ch 0 2 0 1 1 0 0 0) = some 0xFFF200400050000000 ∧ 15 < 16 ∧
    hostAction (.decode (.ch 0 2 0 1 1 0 0 0) 15) = some (.edgeWhenReady (startPorts 0xFFF200400050000000 15)) ∧
    State.reset.busy = false ∧ State.reset.initialised = true ∧ s1.busy = true ∧
    hostAction .reset = some (.edge { rst := true, start := false, inData := 0, inLen := 0 } false) := by decide

theorem witness_HeldStartIsAcceptedAtTheNextEdge :
    s1Commit.busy = true ∧ s1Commit.initialised = true ∧
      answers (clockEdge idlePorts false s1Commit) (nextOf (runSteps 14 s1)) = true ∧ (nextOf (runSteps 14 s1)).busy = false ∧
      (startPorts 1 9).rst = false ∧ (startPorts 1 9).start = true := by decide

theorem witness_StallsAndPortsDoNotChangeTheOutcome :
    (∀ e ∈ (startPorts 1 9, true) :: List.replicate 17 (idlePorts, false), e.1.rst = false) ∧
      17 ≤ ((startPorts 1 9, true) :: List.replicate 17 (idlePorts, false)).countP (fun e => !e.2) := by decide

theorem witness_TransactionEndsWithinSeventeenSteps : s1.busy = true ∧ s1.fsm ≠ .sIdle ∧ s1.fsm ≠ .sDone := by decide

theorem witness_SuccessTakesTheStepsOfItsForm :
    i1.wf = true ∧ (startPorts 0xFFF200400050000000 9).inData = encode i1 ∧
      answers (exec i1 s1) (nextOf (exec i1 s1)) = true ∧ (nextOf (exec i1 s1)).err = false := by decide

theorem witness_WaitEndsWithDone :
    (s1.withHost [.wait]).Inv ∧ (s1.withHost [.wait]).busy = true ∧ (s1.withHost [.wait]).host = [.wait] :=
  ⟨s1_inv _, rfl, rfl⟩

theorem witness_HdrChGivesItsResult :
    9 ≤ s1.len.toNat ∧ samplingRate (8#4).toNat = some 8000 ∧ fixedChannels (10#7).toNat = some 12 ∧
      resolutionClass 2 = some (24, 0) ∧ bitrateEntry (10#7).toNat (4#4).toNat = some 832000 ∧ 832000 ≠ 0 := by decide

theorem witness_HdrObjGivesItsResult :
    9 ≤ s1.len.toNat ∧ samplingRate (0#4).toNat = some 192000 ∧ bitrateEntry 0 (11#4).toNat = some 192000 ∧
      192000 ≠ 0 ∧ resolutionClass 0 = some (8, 1) := by decide

theorem witness_HdrChobjGivesItsResult :
    9 ≤ s1.len.toNat ∧ samplingRate (2#4).toNat = some 48000 ∧ (13#7).toNat < 14 ∧
      bitrateEntry (13#7).toNat (5#4).toNat = some 896000 ∧ 896000 ≠ 0 ∧ bitrateEntry 0 (0#4).toNat = some 16000 ∧
      16000 ≠ 0 ∧ resolutionClass 1 = some (16, 2) := by decide

theorem witness_HdrHoaGivesItsResult :
    9 ≤ s1.len.toNat ∧ samplingRate (2#4).toNat = some 48000 ∧ (2#4).toNat ≤ 2 ∧ resolutionClass 1 = some (16, 2) ∧
      bitrateEntry (11 + (2#4).toNat) (5#4).toNat = some 896000 ∧ 896000 ≠ 0 := by decide

theorem witness_HdrRsvSbtTakesInvalidSoundBedType :
    9 ≤ s1.len.toNat ∧ samplingRate (2#4).toNat = some 48000 ∧ 2 ≤ (2#2).toNat ∧ 2 ≤ (3#2).toNat := by decide

theorem witness_ReservedProfilesTakeInvalidCodingProfile :
    9 ≤ s1.len.toNat ∧ samplingRate (2#4).toNat = some 48000 ∧ 4 ≤ (4#3).toNat ∧ 4 ≤ (7#3).toNat := by decide

/-- One header for each case, at a boundary of its range (vectors S5, P6, A14, A4, A11, A13, A20, A5, A18, A16). -/
theorem witness_HdrChReportsTheFirstError :
    errorOf (exec i1 (started 0 8)) = some (8, 0, 0) ∧
    errorOf (exec (.hdrCh 0 9 0 1 1 0 0 0) s1) = some (4, 23, 27) ∧
    errorOf (exec (.hdrCh 0 2 0 14 1 0 0 0) s1) = some (5, 35, 42) ∧
    errorOf (exec (.hdrCh 0 2 0 4 1 0 0 0) s1) = some (12, 35, 42) ∧
    errorOf (exec (.hdrCh 0 2 0 11 1 0 0 0) s1) = some (12, 35, 42) ∧
    errorOf (exec (.hdrCh 0 2 0 13 1 0 0 0) s1) = some (12, 35, 42) ∧
    errorOf (exec (.hdrCh 0 2 0 1 3 0 0 0) s1) = some (7, 42, 44) ∧
    errorOf (exec (.hdrCh 0 2 0 5 1 0 0 0) s1) = some (11, 44, 48) ∧
    errorOf (exec (.hdrCh 0 2 0 1 1 11 0 0) s1) = some (13, 44, 48) ∧
    (nextOf (exec (.hdrCh 0 2 0 2 0 7 0 0) s1)).resultValid = true := by decide

/-- Vectors S5's length, P6's index, B3, B4 and B2. -/
theorem witness_HdrObjReportsTheFirstError :
    errorOf (exec (.hdrObj 0 2 0 3 2 1 0 0) (started 0 8)) = some (8, 0, 0) ∧
    errorOf (exec (.hdrObj 0 9 0 3 2 1 0 0) s1) = some (4, 23, 27) ∧
    errorOf (exec (.hdrObj 0 2 0 127 12 1 0 0) s1) = some (13, 44, 48) ∧
    errorOf (exec (.hdrObj 0 2 0 3 2 3 0 0) s1) = some (7, 48, 50) ∧
    (nextOf (exec (.hdrObj 0 2 0 127 11 1 0 0) s1)).resultValid = true := by decide

/-- One header for each case, at a boundary of its range. -/
theorem witness_HdrChobjReportsTheFirstError :
    errorOf (exec (.hdrChobj 0 2 0 1 0 0 0 1 0 0) (started 0 8)) = some (8, 0, 0) ∧
    errorOf (exec (.hdrChobj 0 9 0 1 0 0 0 1 0 0) s1) = some (4, 23, 27) ∧
    errorOf (exec (.hdrChobj 0 2 0 14 0 0 0 1 0 0) s1) = some (5, 37, 44) ∧
    errorOf (exec (.hdrChobj 0 2 0 4 0 0 0 1 0 0) s1) = some (11, 44, 48) ∧
    errorOf (exec (.hdrChobj 0 2 0 5 0 0 0 1 0 0) s1) = some (11, 44, 48) ∧
    errorOf (exec (.hdrChobj 0 2 0 1 11 0 0 1 0 0) s1) = some (13, 44, 48) ∧
    errorOf (exec (.hdrChobj 0 2 0 1 0 0 12 1 0 0) s1) = some (13, 55, 59) ∧
    errorOf (exec (.hdrChobj 0 2 0 1 0 0 0 3 0 0) s1) = some (7, 59, 61) ∧
    (nextOf (exec (.hdrChobj 0 2 0 13 5 127 11 1 0 0) s1)).resultValid = true := by decide

/-- Vectors S5's length, P6's index, C4, C8, C6 and C3. -/
theorem witness_HdrHoaReportsTheFirstError :
    errorOf (exec (.hdrHoa 0 2 0 0 1 0 0 0) (started 0 8)) = some (8, 0, 0) ∧
    errorOf (exec (.hdrHoa 0 9 0 0 1 0 0 0) s1) = some (4, 23, 27) ∧
    errorOf (exec (.hdrHoa 0 2 0 3 1 0 0 0) s1) = some (10, 35, 39) ∧
    errorOf (exec (.hdrHoa 0 2 0 2 3 0 0 0) s1) = some (7, 39, 41) ∧
    errorOf (exec (.hdrHoa 0 2 0 0 1 5 0 0) s1) = some (13, 41, 45) ∧
    (nextOf (exec (.hdrHoa 0 2 0 2 1 5 0 0) s1)).resultValid = true := by decide

theorem witness_ReservedFormsReportTheFirstError :
    Instr.wf (.hdrRsvProf3 0 2 0 0) = true ∧ Instr.wf (.hdrRsvProf4to7 0 4 2 0 0) = true ∧
    Instr.wf (.hdrRsvSbt 0 2 0 2 0) = true ∧
    errorOf (exec (.hdrRsvSbt 0 2 0 2 0) (started 0 8)) = some (8, 0, 0) ∧
    errorOf (exec (.hdrRsvProf4to7 0 4 9 0 0) s1) = some (4, 23, 27) ∧
    errorOf (exec (.hdrRsvProf4to7 0 4 8 0 0) s1) = some (6, 20, 35) ∧
    errorOf (exec (.hdrRsvSbt 0 8 0 3 0) s1) = some (9, 35, 37) := by decide

/-- One header of no form for each case. -/
theorem witness_HeadersOfNoFormTakeThePrefixError :
    9 ≤ (9#4).toNat ∧ (∀ i, HeaderWord.decode 0xFFE200400050000000 ≠ .form i) ∧
      (∀ i, HeaderWord.decode 0xFFF100400050000000 ≠ .form i) ∧
      (∀ i, HeaderWord.decode 0xFFF280400050000000 ≠ .form i) :=
  ⟨by decide, fun _ => nofun, fun _ => nofun, fun _ => nofun⟩

theorem witness_ShortBufferFailsBeforeAnyRead : (startPorts 0xFFF200400050000000 8).inLen.toNat < 9 := by decide

/-- With one byte captured the sync word does not fit; with nine the CRC byte at 65 does not. -/
theorem witness_CursorGuardTakesBufferExhausted :
    (0 < Fsm.width .sSync ∧ 8 * min (1#4).toNat 9 < (0#7).toNat + Fsm.width .sSync) ∧
      (0 < Fsm.width .sCrc2 ∧ 8 * min (9#4).toNat 9 < (65#7).toNat + Fsm.width .sCrc2) := by decide

theorem witness_CursorGuardNeverFires :
    (s1.goTo .sSync).Inv ∧ (s1.goTo .sSync).busy = true ∧ (s1.goTo .sSync).fsm ≠ .sLen ∧
      answers (fieldStep (s1.goTo .sSync)) (nextOf (runSteps 2 s1)) = true :=
  ⟨s1_sync_inv, rfl, nofun, by decide⟩

/-- A step that moves on, a commit, and a decode error. -/
theorem witness_FieldStepMovesOnOrEnds :
    (s1.busy = true ∧ answers (fieldStep s1) (s1.goTo .sSync) = true) ∧
    (s1Commit.busy = true ∧ s1Commit.fsm = .sCommit ∧ answers (fieldStep s1Commit) (nextOf (runSteps 14 s1)) = true) ∧
    ((started 0 8).busy = true ∧ answers (fieldStep (started 0 8)) ((started 0 8).raise .bufferExhausted 0) = true) := by decide

theorem witness_FormsLeaveTheCapturedInput :
    answers (exec i1 s1) (nextOf (exec i1 s1)) = true ∧ nextOf (exec i1 s1) ≠ s1 := by decide

theorem witness_FieldStepsLeaveTheCapturedInput :
    answers (fieldStep s1) (s1.goTo .sSync) = true ∧ s1.fsm ≠ .sCommit := by decide

/-- The codec step writes `F[CODEC]`. -/
theorem witness_FieldRegistersAreWrittenByTheirSteps :
    answers (fieldStep (nextOf (runSteps 2 s1))) (nextOf (runSteps 3 s1)) = true ∧ (nextOf (runSteps 3 s1)).f.codec = 2 ∧
      (nextOf (runSteps 2 s1)).f.codec = 0 := by decide

/-- The sampling-rate step writes `W_RATE`. -/
theorem witness_WorkingRegistersAreWrittenByTheirSteps :
    answers (fieldStep (nextOf (runSteps 6 s1))) (nextOf (runSteps 7 s1)) = true ∧ (nextOf (runSteps 7 s1)).w.rate = 48000 ∧
      (nextOf (runSteps 6 s1)).w.rate = 0 := by decide

/-- A step that reads, and one whose field does not fit. -/
theorem witness_CursorMovesByTheFieldsWidth :
    (s1.cur.toNat ≤ 72 ∧ answers (fieldStep (s1.goTo .sSync)) (nextOf (runSteps 2 s1)) = true ∧
      (nextOf (runSteps 2 s1)).cur = 12) ∧
    answers (fieldStep ((started 0 1).goTo .sSync)) (((started 0 1).goTo .sSync).raise .bufferExhausted 0) = true := by decide

theorem witness_EveryStepKeepsTheInvariant :
    (s1.withHost [.wait]).Inv ∧ answers (step (s1.withHost [.wait])) (nextOf (runSteps 14 s1)) = true :=
  ⟨s1_inv _, by decide⟩

theorem witness_InvariantStatesNeverStop : (s1.withHost [.edge idlePorts false]).Inv := s1_inv _

theorem witness_SuccessfulResultsAreLegal :
    answers (exec i1 s1) (nextOf (exec i1 s1)) = true ∧ (nextOf (exec i1 s1)).resultValid = true := by decide

/-- Vectors B8 and B2, where the bitrates are largest. -/
theorem witness_ObjectBitratesAreExact :
    bitrateEntry 0 (11#4).toNat = some 192000 ∧ bitrateEntry (13#7).toNat (5#4).toNat = some 896000 ∧
    (nextOf (exec (.hdrChobj 0 2 0 13 5 127 11 1 0 0) s1)).resultValid = true ∧
    (nextOf (exec (.hdrChobj 0 2 0 13 5 127 11 1 0 0) s1)).r.totalBitrate = 25472000 ∧
    (nextOf (exec (.hdrObj 0 2 0 127 11 1 0 0) s1)).resultValid = true ∧
    (nextOf (exec (.hdrObj 0 2 0 127 11 1 0 0) s1)).r.totalBitrate = 24576000 := by decide

/-- A reset, an accept, a commit and a decode error, each of which changes the outputs. -/
theorem witness_OutputsChangeOnlyAtFourKindsOfEdge :
    (answers (clockEdge { idlePorts with rst := true } false s1) State.reset = true ∧ State.reset.outputs ≠ s1.outputs) ∧
    (answers (clockEdge (startPorts 0xFFF200400050000000 9) false State.reset) s1 = true ∧ s1.outputs ≠ State.reset.outputs) ∧
    (answers (clockEdge idlePorts false s1Commit) (nextOf (runSteps 14 s1)) = true ∧
      (nextOf (runSteps 14 s1)).outputs ≠ s1Commit.outputs) ∧
    (answers (clockEdge idlePorts false (started 0 8)) ((started 0 8).raise .bufferExhausted 0) = true ∧
      ((started 0 8).raise .bufferExhausted 0).outputs ≠ (started 0 8).outputs) := by decide

/-- Vectors S1 and S1b. -/
theorem witness_IgnoredBitsDoNotMatter :
    i1.wf = true ∧ Instr.wf (.hdrCh 0 2 0xA5 1 1 0 0x5A 0xBEEF) = true ∧
    i1.eraseIgnored = Instr.eraseIgnored (.hdrCh 0 2 0xA5 1 1 0 0x5A 0xBEEF) ∧
    (startPorts 0xFFF200400050000000 9).inData = encode i1 ∧
    (startPorts 0xFFF20054A0505ABEEF 9).inData = encode (.hdrCh 0 2 0xA5 1 1 0 0x5A 0xBEEF) := by decide

/-- A configuration without a table, a placeholder, and the last entry of a table. -/
theorem witness_BitrateLookupChecksTableThenEntry :
    (5 < 14 ∧ bitrateLookup 5 0 = .error .missingBitrateTable) ∧
    (1 < 14 ∧ bitrateEntry 1 11 = some 0) ∧ (13 < 14 ∧ bitrateEntry 13 5 = some 896000) :=
  ⟨⟨by decide, rfl⟩, by decide, by decide⟩

/-- The unused register numbers at the ends of their ranges. -/
theorem witness_HostReadsTheStatusRegisters :
    State.hostRead 3 s1 = none ∧ State.hostRead 4 s1 = none ∧ State.hostRead 7 s1 = none ∧
      State.hostRead 24 s1 = none ∧ State.hostRead 0 s1 = some 1 ∧ (State.hostRead 23 s1).isSome = true := by decide

/-- The result of vector S1 at the ends and in the middle of the register numbers 8 to 23. -/
theorem witness_HostReadsTheResultRegisters :
    State.hostRead 8 (nextOf (runSteps 14 s1)) = some 2 ∧ State.hostRead 12 (nextOf (runSteps 14 s1)) = some 48000 ∧
      State.hostRead 20 (nextOf (runSteps 14 s1)) = some 1 ∧
      State.hostRead 23 (nextOf (runSteps 14 s1)) = some 24000 := by decide

/-- `S_B0_OBR` writes `W_CH` with 0, also where it held another value (R205). -/
theorem witness_WorkingRegistersAreWrittenByTheirSteps_ch :
    (nextOf (fieldStep { s1 with fsm := .sB0Obr, cur := 44, w.ch := 5 })).w.ch = 0 := by decide

end Sys2Proof.Tests
end

section
/-! SUPPORT. The model's own bookkeeping (`host`, `initialised`) is read by no field step and by no meaning of a form,
and a field step ends the transaction or moves to a state that names another field step. -/

namespace Sys2Proof.Machine

/-- The state with other values in the two fields of the model's own, which are no registers (log 2, log 6). -/
def State.withOwn (acts : List HostAction) (booted : Bool) (s : State) : State :=
  { s with host := acts, initialised := booted }

@[simp] theorem State.withOwn_f (acts : List HostAction) (booted : Bool) (s : State) :
    (s.withOwn acts booted).f = s.f := rfl
@[simp] theorem State.withOwn_w (acts : List HostAction) (booted : Bool) (s : State) :
    (s.withOwn acts booted).w = s.w := rfl

/-- The ports show no bookkeeping. -/
@[simp] theorem State.withOwn_outputs (acts : List HostAction) (booted : Bool) (s : State) :
    (s.withOwn acts booted).outputs = s.outputs := rfl

/-- After an accept of the same input two blocks differ in the bookkeeping alone (R140). -/
theorem State.accept_eq_withOwn (p : Ports) (s s' : State) :
    s'.accept p = (s.accept p).withOwn s'.host s'.initialised := rfl

/-- An update that neither reads nor writes the bookkeeping. -/
def IgnoresOwn (g : State → State) : Prop :=
  ∀ acts booted s, g (s.withOwn acts booted) = (g s).withOwn acts booted

/-- A busy block's `STATE` names a field step (spec/10_state.md R26). -/
def State.NamesStep (s : State) : Prop :=
  s.busy = true → s.fsm ≠ .sIdle ∧ s.fsm ≠ .sDone

theorem State.namesStep_accept (p : Ports) (s : State) : (s.accept p).NamesStep :=
  fun _ => ⟨nofun, nofun⟩

theorem State.namesStep_raise (e : HeaderError) (pos : StreamPos) (s : State) : (s.raise e pos).NamesStep :=
  nofun

theorem State.namesStep_goTo {x : Fsm} (s : State) (hidle : x ≠ .sIdle) (hdone : x ≠ .sDone) :
    (s.goTo x).NamesStep :=
  fun _ => ⟨hidle, hdone⟩

/-- What the body of every field step satisfies: it ignores the bookkeeping, and it ends the transaction or leaves a
state that names the next field step. -/
def StepBody (body : State → State) : Prop :=
  ∀ acts booted s, body (s.withOwn acts booted) = (body s).withOwn acts booted ∧ (body s).NamesStep

theorem StepBody.ignoresOwn {body : State → State} (hbody : StepBody body) : IgnoresOwn body :=
  fun acts booted s => (hbody acts booted s).1

theorem StepBody.namesStep {body : State → State} (hbody : StepBody body) (s : State) : (body s).NamesStep :=
  (hbody s.host s.initialised s).2

theorem lenStep_short {s : State} (h : min s.len.toNat 9 < 9) : lenStep s = s.raise .bufferExhausted 0 :=
  if_pos h

theorem lenStep_full {s : State} (h : ¬ min s.len.toNat 9 < 9) : lenStep s = s.goTo .sSync :=
  if_neg h

theorem lenStep_stepBody : StepBody lenStep := by
  intro acts booted s
  by_cases h : min s.len.toNat 9 < 9
  · rw [lenStep_short h, lenStep_short (s := s.withOwn acts booted) h]
    exact ⟨rfl, State.namesStep_raise _ _ _⟩
  · rw [lenStep_full h, lenStep_full (s := s.withOwn acts booted) h]
    exact ⟨rfl, State.namesStep_goTo _ nofun nofun⟩

theorem syncBody_stepBody (v : BitVec 12) : StepBody (syncBody v) := by
  intro acts booted s
  unfold syncBody
  split
  · exact ⟨rfl, State.namesStep_raise _ _ _⟩
  · exact ⟨rfl, State.namesStep_goTo _ nofun nofun⟩

theorem codecBody_stepBody (v : BitVec 4) : StepBody (codecBody v) := by
  intro acts booted s
  unfold codecBody
  split
  · exact ⟨rfl, State.namesStep_raise _ _ _⟩
  · exact ⟨rfl, State.namesStep_goTo _ nofun nofun⟩

theorem ancBody_stepBody (v : BitVec 1) : StepBody (ancBody v) := by
  intro acts booted s
  unfold ancBody
  split
  · exact ⟨rfl, State.namesStep_raise _ _ _⟩
  · exact ⟨rfl, State.namesStep_goTo _ nofun nofun⟩

theorem nnBody_stepBody (v : BitVec 3) : StepBody (nnBody v) :=
  fun _ _ _ => ⟨rfl, State.namesStep_goTo _ nofun nofun⟩

theorem profBody_stepBody (v : BitVec 3) : StepBody (profBody v) :=
  fun _ _ _ => ⟨rfl, State.namesStep_goTo _ nofun nofun⟩

theorem srBody_stepBody (v : BitVec 4) : StepBody (srBody v) := by
  intro acts booted s
  unfold srBody
  split
  · exact ⟨rfl, State.namesStep_raise _ _ _⟩
  · exact ⟨rfl, State.namesStep_goTo _ nofun nofun⟩

theorem crc1Body_stepBody : StepBody crc1Body :=
  fun _ _ _ => ⟨rfl, State.namesStep_goTo _ nofun nofun⟩

theorem dispatchStep_stepBody : StepBody dispatchStep := by
  intro acts booted s
  simp only [dispatchStep, State.withOwn_f]
  split
  · exact ⟨rfl, State.namesStep_goTo _ nofun nofun⟩
  · exact ⟨rfl, State.namesStep_goTo _ nofun nofun⟩
  · exact ⟨rfl, State.namesStep_goTo _ nofun nofun⟩
  · exact ⟨rfl, State.namesStep_raise _ _ _⟩

theorem aCfgBody_stepBody (v : BitVec 7) : StepBody (aCfgBody v) := by
  intro acts booted s
  unfold aCfgBody
  split
  · exact ⟨rfl, State.namesStep_raise _ _ _⟩
  · split
    · exact ⟨rfl, State.namesStep_raise _ _ _⟩
    · exact ⟨rfl, State.namesStep_goTo _ nofun nofun⟩

theorem sbtBody_stepBody (v : BitVec 2) : StepBody (sbtBody v) := by
  intro acts booted s
  unfold sbtBody
  split
  · exact ⟨rfl, State.namesStep_goTo _ nofun nofun⟩
  · exact ⟨rfl, State.namesStep_goTo _ nofun nofun⟩
  · exact ⟨rfl, State.namesStep_raise _ _ _⟩

theorem b0ObjBody_stepBody (v : BitVec 7) : StepBody (b0ObjBody v) :=
  fun _ _ _ => ⟨rfl, State.namesStep_goTo _ nofun nofun⟩

theorem b0ObrBody_stepBody (v : BitVec 4) : StepBody (b0ObrBody v) := by
  intro acts booted s
  unfold b0ObrBody
  split
  · exact ⟨rfl, State.namesStep_raise _ _ _⟩
  · exact ⟨rfl, State.namesStep_goTo _ nofun nofun⟩

theorem b1CfgBody_stepBody (v : BitVec 7) : StepBody (b1CfgBody v) := by
  intro acts booted s
  unfold b1CfgBody
  split
  · exact ⟨rfl, State.namesStep_raise _ _ _⟩
  · exact ⟨rfl, State.namesStep_goTo _ nofun nofun⟩

theorem b1BbrBody_stepBody (v : BitVec 4) : StepBody (b1BbrBody v) := by
  intro acts booted s
  simp only [b1BbrBody, State.withOwn_f]
  split
  · exact ⟨rfl, State.namesStep_raise _ _ _⟩
  · exact ⟨rfl, State.namesStep_goTo _ nofun nofun⟩

theorem b1ObjBody_stepBody (v : BitVec 7) : StepBody (b1ObjBody v) :=
  fun _ _ _ => ⟨rfl, State.namesStep_goTo _ nofun nofun⟩

theorem b1ObrBody_stepBody (v : BitVec 4) : StepBody (b1ObrBody v) := by
  intro acts booted s
  unfold b1ObrBody
  split
  · exact ⟨rfl, State.namesStep_raise _ _ _⟩
  · exact ⟨rfl, State.namesStep_goTo _ nofun nofun⟩

theorem ordBody_stepBody (v : BitVec 4) : StepBody (ordBody v) := by
  intro acts booted s
  dsimp only [ordBody]
  split
  · exact ⟨rfl, State.namesStep_goTo _ nofun nofun⟩
  · exact ⟨rfl, State.namesStep_raise _ _ _⟩

theorem resBody_invalid {p0 : StreamPos} {v : BitVec 2} (h : resolutionClass v = none) (s : State) :
    resBody p0 v s = { s with f.res := v }.raise .invalidResolutionIndex p0 := by
  simp only [resBody, h]

theorem resBody_valid {p0 : StreamPos} {v : BitVec 2} {bits : BitVec 5} {fmt : BitVec 2}
    (h : resolutionClass v = some (bits, fmt)) (s : State) :
    resBody p0 v s =
      { s with f.res := v, w.resBits := bits, w.fmt := fmt }.goTo (if s.f.prof = 1#3 then .sCrc2 else .sBr) := by
  simp only [resBody, h]
  split <;> rfl

theorem resBody_stepBody (p0 : StreamPos) (v : BitVec 2) : StepBody (resBody p0 v) := by
  intro acts booted s
  cases h : resolutionClass v with
  | none =>
    rw [resBody_invalid h, resBody_invalid h]
    exact ⟨rfl, State.namesStep_raise _ _ _⟩
  | some c =>
    rw [resBody_valid h, resBody_valid h]
    exact ⟨rfl, State.namesStep_goTo _ (by split <;> nofun) (by split <;> nofun)⟩

theorem brBody_stepBody (p0 : StreamPos) (v : BitVec 4) : StepBody (brBody p0 v) := by
  intro acts booted s
  simp only [brBody, State.withOwn_w]
  split
  · exact ⟨rfl, State.namesStep_raise _ _ _⟩
  · exact ⟨rfl, State.namesStep_goTo _ nofun nofun⟩

theorem crc2Body_stepBody : StepBody crc2Body :=
  fun _ _ _ => ⟨rfl, State.namesStep_goTo _ nofun nofun⟩

theorem commitStep_stepBody : StepBody commitStep :=
  fun _ _ _ => ⟨rfl, nofun⟩

end Sys2Proof.Machine
end

section
/-! SUPPORT. A transaction answers a next state that depends on the bookkeeping only by carrying it along: the meaning
of every form, and every run of field steps. -/

namespace Sys2Proof.Machine

theorem IgnoresOwn.andThen {g f : State → State} (hg : IgnoresOwn g) (hf : IgnoresOwn f) :
    IgnoresOwn fun s => f (g s) :=
  fun acts booted s => (congrArg f (hg acts booted s)).trans (hf acts booted (g s))

theorem takeField_ignoresOwn {w : Nat} {v : BitVec w} {body : BitVec w → State → State}
    (hbody : IgnoresOwn (body v)) : IgnoresOwn (takeField w v body) := by
  intro acts booted s
  cases hb : s.busy with
  | false => rw [takeField_over hb, takeField_over (s := s.withOwn acts booted) hb]
  | true =>
    rw [takeField_busy hb, takeField_busy (s := s.withOwn acts booted) hb]
    exact hbody acts booted (s.advance w)

theorem takeStep_ignoresOwn {body : State → State} (hbody : IgnoresOwn body) : IgnoresOwn (takeStep body) := by
  intro acts booted s
  cases hb : s.busy with
  | false => rw [takeStep_over hb, takeStep_over (s := s.withOwn acts booted) hb]
  | true =>
    rw [takeStep_busy hb, takeStep_busy (s := s.withOwn acts booted) hb]
    exact hbody acts booted s

/-- A field step of a form's operands, after an update that ignores the bookkeeping. -/
theorem IgnoresOwn.thenField {g : State → State} (hg : IgnoresOwn g) {w : Nat} {v : BitVec w}
    {body : BitVec w → State → State} (hbody : StepBody (body v)) : IgnoresOwn fun s => takeField w v body (g s) :=
  hg.andThen (takeField_ignoresOwn hbody.ignoresOwn)

/-- A step that reads no bits, after an update that ignores the bookkeeping. -/
theorem IgnoresOwn.thenStep {g : State → State} (hg : IgnoresOwn g) {body : State → State} (hbody : StepBody body) :
    IgnoresOwn fun s => takeStep body (g s) :=
  hg.andThen (takeStep_ignoresOwn hbody.ignoresOwn)

theorem beginTransaction_ignoresOwn : IgnoresOwn State.beginTransaction :=
  fun _ _ _ => rfl

theorem runPrefix_ignoresOwn (nn prof : BitVec 3) (sr : BitVec 4) (crc1 : Byte) :
    IgnoresOwn (runPrefix nn prof sr crc1) :=
  beginTransaction_ignoresOwn
    |>.thenStep lenStep_stepBody
    |>.thenField (syncBody_stepBody _)
    |>.thenField (codecBody_stepBody _)
    |>.thenField (ancBody_stepBody _)
    |>.thenField (nnBody_stepBody _)
    |>.thenField (profBody_stepBody _)
    |>.thenField (srBody_stepBody _)
    |>.thenField (body := fun _ => crc1Body) crc1Body_stepBody
    |>.thenStep dispatchStep_stepBody

/-- The last two steps of a form, after an update that ignores the bookkeeping. -/
theorem IgnoresOwn.thenEnd {g : State → State} (hg : IgnoresOwn g) (crc2 : Byte) :
    IgnoresOwn fun s => runEnd crc2 (g s) :=
  hg.thenField (body := fun _ => crc2Body) crc2Body_stepBody |>.thenStep commitStep_stepBody

/-- The meaning of every form is an update of the state that ignores the bookkeeping. -/
theorem exec_ignoresOwn (i : Instr) : ∃ g, IgnoresOwn g ∧ ∀ s, exec i s = .next (g s) := by
  cases i with
  | hdrCh nn sr crc1 cfg res br crc2 _ =>
    exact ⟨_, runPrefix_ignoresOwn nn 0#3 sr crc1
      |>.thenField (aCfgBody_stepBody cfg)
      |>.thenField (resBody_stepBody 42 res)
      |>.thenField (brBody_stepBody 44 br)
      |>.thenEnd crc2, fun _ => rfl⟩
  | hdrObj nn sr crc1 obj obr res crc2 _ =>
    exact ⟨_, runPrefix_ignoresOwn nn 1#3 sr crc1
      |>.thenField (sbtBody_stepBody 0#2)
      |>.thenField (b0ObjBody_stepBody obj)
      |>.thenField (b0ObrBody_stepBody obr)
      |>.thenField (resBody_stepBody 48 res)
      |>.thenEnd crc2, fun _ => rfl⟩
  | hdrChobj nn sr crc1 cfg bbr obj obr res crc2 _ =>
    exact ⟨_, runPrefix_ignoresOwn nn 1#3 sr crc1
      |>.thenField (sbtBody_stepBody 1#2)
      |>.thenField (b1CfgBody_stepBody cfg)
      |>.thenField (b1BbrBody_stepBody bbr)
      |>.thenField (b1ObjBody_stepBody obj)
      |>.thenField (b1ObrBody_stepBody obr)
      |>.thenField (resBody_stepBody 59 res)
      |>.thenEnd crc2, fun _ => rfl⟩
  | hdrHoa nn sr crc1 ord res br crc2 _ =>
    exact ⟨_, runPrefix_ignoresOwn nn 2#3 sr crc1
      |>.thenField (ordBody_stepBody ord)
      |>.thenField (resBody_stepBody 39 res)
      |>.thenField (brBody_stepBody 41 br)
      |>.thenEnd crc2, fun _ => rfl⟩
  | hdrRsvSbt nn sr crc1 sbt _ =>
    exact ⟨_, runPrefix_ignoresOwn nn 1#3 sr crc1 |>.thenField (sbtBody_stepBody sbt), fun _ => rfl⟩
  | hdrRsvProf3 nn sr crc1 _ => exact ⟨_, runPrefix_ignoresOwn nn 3#3 sr crc1, fun _ => rfl⟩
  | hdrRsvProf4to7 nn prof sr crc1 _ => exact ⟨_, runPrefix_ignoresOwn nn prof sr crc1, fun _ => rfl⟩

/-- Whatever the bookkeeping in `s`, `m` answers `t` with that bookkeeping. -/
def LeadsTo (m : State → Host.Outcome State Fault Refusal) (s t : State) : Prop :=
  ∀ acts booted, m (s.withOwn acts booted) = .next (t.withOwn acts booted)

/-- A field step that reads no bits. -/
theorem fieldStep_leadsTo_of_step {s : State} {body : State → State} (hbody : StepBody body)
    (h : ∀ acts booted, fieldStep (s.withOwn acts booted) = .next (body (s.withOwn acts booted))) :
    ∃ t, t.NamesStep ∧ LeadsTo fieldStep s t :=
  ⟨body s, hbody.namesStep s, fun acts booted => by rw [h, hbody.ignoresOwn]⟩

/-- A field step that reads or skips `w` bits: they fit, or it takes BufferExhausted (R145). -/
theorem fieldStep_leadsTo_of_read {s : State} {w : Nat} {body : BitVec w → State → State} (hw : 0 < w ∧ w ≤ 32)
    (hbody : ∀ v, StepBody (body v))
    (h : ∀ acts booted, fieldStep (s.withOwn acts booted) = readThen w (s.withOwn acts booted) body) :
    ∃ t, t.NamesStep ∧ LeadsTo fieldStep s t := by
  by_cases hfit : s.cur.toNat + w ≤ s.availableBits
  · have hv := hbody (memRead s.ib s.cur.toNat w)
    refine ⟨_, hv.namesStep (s.advance w), fun acts booted => ?_⟩
    rw [h, readThen_fits (s := s.withOwn acts booted) hw hfit, ← hv.ignoresOwn]
    rfl
  · refine ⟨_, s.namesStep_raise .bufferExhausted s.cur, fun acts booted => ?_⟩
    rw [h, readThen_exhausted (s := s.withOwn acts booted) hw (Nat.lt_of_not_le hfit)]
    rfl

/-- The field step of a busy state that names one answers a next state that is over or names a field step, and it
ignores the bookkeeping. -/
theorem fieldStep_leadsTo {s : State} (hbusy : s.busy = true) (hs : s.NamesStep) :
    ∃ t, t.NamesStep ∧ LeadsTo fieldStep s t := by
  cases hf : s.fsm with
  | sIdle => exact absurd hf (hs hbusy).1
  | sDone => exact absurd hf (hs hbusy).2
  | sLen => exact fieldStep_leadsTo_of_step lenStep_stepBody fun _ _ => fieldStep_sLen hf
  | sDispatch => exact fieldStep_leadsTo_of_step dispatchStep_stepBody fun _ _ => fieldStep_sDispatch hf
  | sCommit => exact fieldStep_leadsTo_of_step commitStep_stepBody fun _ _ => fieldStep_sCommit hf
  | sSync => exact fieldStep_leadsTo_of_read (by decide) syncBody_stepBody fun _ _ => fieldStep_sSync hf
  | sCodec => exact fieldStep_leadsTo_of_read (by decide) codecBody_stepBody fun _ _ => fieldStep_sCodec hf
  | sAnc => exact fieldStep_leadsTo_of_read (by decide) ancBody_stepBody fun _ _ => fieldStep_sAnc hf
  | sNn => exact fieldStep_leadsTo_of_read (by decide) nnBody_stepBody fun _ _ => fieldStep_sNn hf
  | sProf => exact fieldStep_leadsTo_of_read (by decide) profBody_stepBody fun _ _ => fieldStep_sProf hf
  | sSr => exact fieldStep_leadsTo_of_read (by decide) srBody_stepBody fun _ _ => fieldStep_sSr hf
  | sCrc1 => exact fieldStep_leadsTo_of_read (by decide) (fun _ => crc1Body_stepBody) fun _ _ => fieldStep_sCrc1 hf
  | sACfg => exact fieldStep_leadsTo_of_read (by decide) aCfgBody_stepBody fun _ _ => fieldStep_sACfg hf
  | sBSbt => exact fieldStep_leadsTo_of_read (by decide) sbtBody_stepBody fun _ _ => fieldStep_sBSbt hf
  | sB0Obj => exact fieldStep_leadsTo_of_read (by decide) b0ObjBody_stepBody fun _ _ => fieldStep_sB0Obj hf
  | sB0Obr => exact fieldStep_leadsTo_of_read (by decide) b0ObrBody_stepBody fun _ _ => fieldStep_sB0Obr hf
  | sB1Cfg => exact fieldStep_leadsTo_of_read (by decide) b1CfgBody_stepBody fun _ _ => fieldStep_sB1Cfg hf
  | sB1Bbr => exact fieldStep_leadsTo_of_read (by decide) b1BbrBody_stepBody fun _ _ => fieldStep_sB1Bbr hf
  | sB1Obj => exact fieldStep_leadsTo_of_read (by decide) b1ObjBody_stepBody fun _ _ => fieldStep_sB1Obj hf
  | sB1Obr => exact fieldStep_leadsTo_of_read (by decide) b1ObrBody_stepBody fun _ _ => fieldStep_sB1Obr hf
  | sCOrd => exact fieldStep_leadsTo_of_read (by decide) ordBody_stepBody fun _ _ => fieldStep_sCOrd hf
  | sRes => exact fieldStep_leadsTo_of_read (by decide) (resBody_stepBody s.cur) fun _ _ => fieldStep_sRes hf
  | sBr => exact fieldStep_leadsTo_of_read (by decide) (brBody_stepBody s.cur) fun _ _ => fieldStep_sBr hf
  | sCrc2 => exact fieldStep_leadsTo_of_read (by decide) (fun _ => crc2Body_stepBody) fun _ _ => fieldStep_sCrc2 hf

/-- Field steps run from a state that names one always answer a next state, and they ignore the bookkeeping. -/
theorem runSteps_leadsTo (n : Nat) : ∀ s : State, s.NamesStep → ∃ t, LeadsTo (runSteps n) s t := by
  induction n with
  | zero => exact fun s _ => ⟨s, fun _ _ => rfl⟩
  | succ n ih =>
    intro s hs
    cases hb : s.busy with
    | false => exact ⟨s, fun _ _ => runSteps_over (n + 1) hb⟩
    | true =>
      obtain ⟨u, hu, hstep⟩ := fieldStep_leadsTo hb hs
      obtain ⟨t, ht⟩ := ih u hu
      refine ⟨t, fun acts booted => ?_⟩
      rw [runSteps_busy (s := s.withOwn acts booted) n hb (hstep acts booted)]
      exact ht acts booted

theorem exec_leadsTo (i : Instr) (s : State) : ∃ t, LeadsTo (exec i) s t := by
  obtain ⟨g, hg, hexec⟩ := exec_ignoresOwn i
  exact ⟨g s, fun acts booted => by rw [hexec, hg]⟩

/-- The end of the transaction of an accepted input is one state, whatever the block did before, but for the
bookkeeping it keeps. -/
theorem waitDone_accept_eq (p : Ports) :
    ∃ t : State, ∀ s : State, waitDone (s.accept p) = .next (t.withOwn s.host s.initialised) := by
  cases h : p.inData.decode with
  | form i =>
    obtain ⟨t, ht⟩ := exec_leadsTo i (State.reset.accept p)
    exact ⟨t, fun s => by rw [waitDone_accept, h, ← ht, ← State.accept_eq_withOwn]⟩
  | reject r =>
    obtain ⟨t, ht⟩ := runSteps_leadsTo 17 (State.reset.accept p) (State.namesStep_accept p State.reset)
    exact ⟨t, fun s => by rw [waitDone_accept, h, ← ht, ← State.accept_eq_withOwn, finishTransaction]⟩

/-- Settles O50: after the accept the two blocks differ in the model's own bookkeeping alone, which no meaning of a form
and no field step reads and no port shows. -/
theorem transactionsForgetThePast : Obligations.TransactionsForgetThePast := by
  intro s s' p
  obtain ⟨t, ht⟩ := waitDone_accept_eq p
  exact ⟨_, _, ht s, ht s', by rw [State.withOwn_outputs, State.withOwn_outputs]⟩

end Sys2Proof.Machine
end

section
/-! SUPPORT. Everything a field step can do, said once for all of them: the field register it writes, the state it goes
to and the working registers it leaves there, or the error it takes. -/

namespace Sys2Proof.Machine

/-- The field register file once the step of a `STATE` value has read `v` (spec/10_state.md R27). -/
def Fsm.put : (x : Fsm) → BitVec x.width → FieldRegs → FieldRegs
  | .sSync, v, f => { f with sync := v }
  | .sCodec, v, f => { f with codec := v }
  | .sAnc, v, f => { f with anc := v }
  | .sNn, v, f => { f with nn := v }
  | .sProf, v, f => { f with prof := v }
  | .sSr, v, f => { f with sr := v }
  | .sACfg, v, f => { f with cfg := v }
  | .sBSbt, v, f => { f with sbt := v }
  | .sB0Obj, v, f => { f with obj := v }
  | .sB0Obr, v, f => { f with obr := v }
  | .sB1Cfg, v, f => { f with cfg := v }
  | .sB1Bbr, v, f => { f with bbr := v }
  | .sB1Obj, v, f => { f with obj := v }
  | .sB1Obr, v, f => { f with obr := v }
  | .sCOrd, v, f => { f with ord := v }
  | .sRes, v, f => { f with res := v }
  | .sBr, v, f => { f with br := v }
  | .sIdle, _, f => f
  | .sLen, _, f => f
  | .sCrc1, _, f => f
  | .sDispatch, _, f => f
  | .sCrc2, _, f => f
  | .sCommit, _, f => f
  | .sDone, _, f => f

/-- The step `S_DISPATCH` goes to for a coding profile up to 2 (R154). -/
def branchOf (prof : BitVec 3) : Fsm :=
  match prof.toNat with
  | 0 => .sACfg
  | 1 => .sBSbt
  | _ => .sCOrd

/-- The checks of the step of `x` pass on `v`, and it goes to `y` with the working registers `w`. -/
def Fsm.Passes : (x : Fsm) → BitVec x.width → State → Fsm → WorkRegs → Prop
  | .sLen, _, s, y, w => 9 ≤ s.len.toNat ∧ y = .sSync ∧ w = s.w
  | .sSync, _, s, y, w => y = .sCodec ∧ w = s.w
  | .sCodec, v, s, y, w => v.toNat = 2 ∧ y = .sAnc ∧ w = s.w
  | .sAnc, _, s, y, w => y = .sNn ∧ w = s.w
  | .sNn, _, s, y, w => y = .sProf ∧ w = s.w
  | .sProf, _, s, y, w => y = .sSr ∧ w = s.w
  | .sSr, v, s, y, w =>
    ∃ rate, samplingRate v.toNat = some rate ∧ y = .sCrc1 ∧ w = { s.w with rate := BitVec.ofNat 32 rate }
  | .sCrc1, _, s, y, w => y = .sDispatch ∧ w = s.w
  | .sDispatch, _, s, y, w => s.f.prof.toNat ≤ 2 ∧ y = branchOf s.f.prof ∧ w = s.w
  | .sACfg, v, s, y, w =>
    ∃ n present, v.toNat < 14 ∧ fixedChannels v.toNat = some n ∧ y = .sRes ∧
      w = { s.w with
        ch := BitVec.ofNat 8 n, layV := present, lay := (layoutOf present v).2, tbl := configIndex v, ctype := 1 }
  | .sBSbt, v, s, y, w => v.toNat ≤ 1 ∧ y = (if v.toNat = 0 then .sB0Obj else .sB1Cfg) ∧ w = s.w
  | .sB0Obj, v, s, y, w => y = .sB0Obr ∧ w = { s.w with obj := objectCount v }
  | .sB0Obr, v, s, y, w =>
    ∃ b, bitrateLookup 0 v = .ok b ∧ y = .sRes ∧
      w = { s.w with objBr := b, br := objectBitrate 0 b s.w.obj, ch := 0, ctype := 2 }
  | .sB1Cfg, v, s, y, w => v.toNat < 14 ∧ y = .sB1Bbr ∧ w = s.w
  | .sB1Bbr, v, s, y, w => ∃ b, bitrateLookup s.f.cfg.toNat v = .ok b ∧ y = .sB1Obj ∧ w = { s.w with bedBr := b }
  | .sB1Obj, v, s, y, w => y = .sB1Obr ∧ w = { s.w with obj := objectCount v }
  | .sB1Obr, v, s, y, w =>
    ∃ b present, bitrateLookup 0 v = .ok b ∧ y = .sRes ∧
      w = { s.w with
        objBr := b, ch := BitVec.ofNat 8 ((nmcLookup s.f.cfg.toNat).getD 0), layV := present,
        lay := (layoutOf present s.f.cfg).2, br := objectBitrate s.w.bedBr b s.w.obj, ctype := 3 }
  | .sCOrd, v, s, y, w =>
    v.toNat ≤ 2 ∧ y = .sRes ∧
      w = { s.w with
        order := ambisonicOrder v, ch := ambisonicChannels (ambisonicOrder v),
        tbl := ambisonicTable (ambisonicOrder v), ctype := 4 }
  | .sRes, v, s, y, w =>
    ∃ bits fmt, resolutionClass v = some (bits, fmt) ∧ y = (if s.f.prof = 1#3 then .sCrc2 else .sBr) ∧
      w = { s.w with resBits := bits, fmt := fmt }
  | .sBr, v, s, y, w => ∃ b, bitrateLookup s.w.tbl.toNat v = .ok b ∧ y = .sCrc2 ∧ w = { s.w with br := b }
  | .sCrc2, _, s, y, w => y = .sCommit ∧ w = s.w
  | .sIdle, _, _, _, _ => False
  | .sCommit, _, _, _, _ => False
  | .sDone, _, _, _, _ => False

/-- What the step of `x`, its field begun at `p0`, does once it has read `v`: it writes the field register, then takes
an error or moves on; or it commits. -/
inductive Fsm.Does (x : Fsm) (p0 : StreamPos) (v : BitVec x.width) (s : State) : State → Prop
  | error (e : HeaderError) (pos : StreamPos) (hpos : p0.toNat ≤ 72 → pos.toNat ≤ 72) :
    x.Does p0 v s ({ s with f := x.put v s.f }.raise e pos)
  | pass (y : Fsm) (w : WorkRegs) (hpass : x.Passes v s y w) :
    x.Does p0 v s ({ s with f := x.put v s.f, w := w }.goTo y)
  | commit (hx : x = .sCommit) : x.Does p0 v s (commitStep s)

variable {p0 : StreamPos}

theorem lenStep_does (v : BitVec 0) (s : State) : Fsm.sLen.Does p0 v s (lenStep s) := by
  by_cases h : min s.len.toNat 9 < 9
  · rw [lenStep_short h]
    exact .error _ _ fun _ => by decide
  · rw [lenStep_full h]
    exact .pass .sSync s.w ⟨by omega, rfl, rfl⟩

theorem syncBody_does (v : BitVec 12) (s : State) : Fsm.sSync.Does p0 v s (syncBody v s) := by
  unfold syncBody
  split
  · exact .error _ _ fun _ => by decide
  · exact .pass .sCodec s.w ⟨rfl, rfl⟩

theorem codecBody_does (v : BitVec 4) (s : State) : Fsm.sCodec.Does p0 v s (codecBody v s) := by
  unfold codecBody
  split
  · exact .error _ _ fun _ => by decide
  · next h => exact .pass .sAnc s.w ⟨congrArg BitVec.toNat (Decidable.not_not.mp h), rfl, rfl⟩

theorem ancBody_does (v : BitVec 1) (s : State) : Fsm.sAnc.Does p0 v s (ancBody v s) := by
  unfold ancBody
  split
  · exact .error _ _ fun _ => by decide
  · exact .pass .sNn s.w ⟨rfl, rfl⟩

theorem nnBody_does (v : BitVec 3) (s : State) : Fsm.sNn.Does p0 v s (nnBody v s) :=
  .pass .sProf s.w ⟨rfl, rfl⟩

theorem profBody_does (v : BitVec 3) (s : State) : Fsm.sProf.Does p0 v s (profBody v s) :=
  .pass .sSr s.w ⟨rfl, rfl⟩

theorem srBody_does (v : BitVec 4) (s : State) : Fsm.sSr.Does p0 v s (srBody v s) := by
  unfold srBody
  split
  · exact .error _ _ fun _ => by decide
  · next rate h => exact .pass .sCrc1 _ ⟨rate, h, rfl, rfl⟩

theorem crc1Body_does (v : Byte) (s : State) : Fsm.sCrc1.Does p0 v s (crc1Body s) :=
  .pass .sDispatch s.w ⟨rfl, rfl⟩

theorem dispatchStep_does (v : BitVec 0) (s : State) : Fsm.sDispatch.Does p0 v s (dispatchStep s) := by
  unfold dispatchStep
  split
  · next h => exact .pass .sACfg s.w ⟨h.trans_le (by decide), by simp [branchOf, h], rfl⟩
  · next h => exact .pass .sBSbt s.w ⟨h.trans_le (by decide), by simp [branchOf, h], rfl⟩
  · next h => exact .pass .sCOrd s.w ⟨h.trans_le (by decide), by simp [branchOf, h], rfl⟩
  · exact .error _ _ fun _ => by decide

theorem aCfgBody_does (v : BitVec 7) (s : State) : Fsm.sACfg.Does p0 v s (aCfgBody v s) := by
  unfold aCfgBody
  split
  · exact .error _ _ fun _ => by decide
  · next hlt =>
    split
    · exact .error _ _ fun _ => by decide
    · next n hn => exact .pass .sRes _ ⟨n, namedLayout v.toNat, Nat.lt_of_not_le hlt, hn, rfl, rfl⟩

theorem sbtBody_does (v : BitVec 2) (s : State) : Fsm.sBSbt.Does p0 v s (sbtBody v s) := by
  unfold sbtBody
  split
  · next h => exact .pass .sB0Obj s.w ⟨h.trans_le (by decide), (if_pos h).symm, rfl⟩
  · next h => exact .pass .sB1Cfg s.w ⟨h.le, (if_neg fun h0 => absurd (h0.symm.trans h) (by decide)).symm, rfl⟩
  · exact .error _ _ fun _ => by decide

theorem b0ObjBody_does (v : BitVec 7) (s : State) : Fsm.sB0Obj.Does p0 v s (b0ObjBody v s) :=
  .pass .sB0Obr _ ⟨rfl, rfl⟩

theorem b0ObrBody_does (v : BitVec 4) (s : State) : Fsm.sB0Obr.Does p0 v s (b0ObrBody v s) := by
  unfold b0ObrBody
  split
  · exact .error _ _ fun _ => by decide
  · next b hb => exact .pass .sRes _ ⟨b, hb, rfl, rfl⟩

theorem b1CfgBody_does (v : BitVec 7) (s : State) : Fsm.sB1Cfg.Does p0 v s (b1CfgBody v s) := by
  unfold b1CfgBody
  split
  · exact .error _ _ fun _ => by decide
  · next hlt => exact .pass .sB1Bbr s.w ⟨Nat.lt_of_not_le hlt, rfl, rfl⟩

theorem b1BbrBody_does (v : BitVec 4) (s : State) : Fsm.sB1Bbr.Does p0 v s (b1BbrBody v s) := by
  dsimp only [b1BbrBody]
  split
  · exact .error _ _ fun _ => by decide
  · next b hb => exact .pass .sB1Obj _ ⟨b, hb, rfl, rfl⟩

theorem b1ObjBody_does (v : BitVec 7) (s : State) : Fsm.sB1Obj.Does p0 v s (b1ObjBody v s) :=
  .pass .sB1Obr _ ⟨rfl, rfl⟩

theorem b1ObrBody_does (v : BitVec 4) (s : State) : Fsm.sB1Obr.Does p0 v s (b1ObrBody v s) := by
  unfold b1ObrBody
  split
  · exact .error _ _ fun _ => by decide
  · next b hb => exact .pass .sRes _ ⟨b, _, hb, rfl, rfl⟩

theorem ordBody_does (v : BitVec 4) (s : State) : Fsm.sCOrd.Does p0 v s (ordBody v s) := by
  dsimp only [ordBody]
  split
  · next ho =>
    have hv : v.toNat ≤ 2 := by
      unfold ambisonicOrder at ho
      bv_omega
    exact .pass .sRes _ ⟨hv, rfl, rfl⟩
  · exact .error _ _ fun _ => by decide

theorem resBody_does (v : BitVec 2) (s : State) : Fsm.sRes.Does p0 v s (resBody p0 v s) := by
  cases h : resolutionClass v with
  | none =>
    rw [resBody_invalid h]
    exact .error _ _ id
  | some c =>
    rw [resBody_valid h]
    exact .pass _ _ ⟨c.1, c.2, h, rfl, rfl⟩

theorem brBody_does (v : BitVec 4) (s : State) : Fsm.sBr.Does p0 v s (brBody p0 v s) := by
  dsimp only [brBody]
  split
  · exact .error _ _ id
  · next b hb => exact .pass .sCrc2 _ ⟨b, hb, rfl, rfl⟩

theorem crc2Body_does (v : Byte) (s : State) : Fsm.sCrc2.Does p0 v s (crc2Body s) :=
  .pass .sCommit s.w ⟨rfl, rfl⟩

theorem commitStep_does (v : BitVec 0) (s : State) : Fsm.sCommit.Does p0 v s (commitStep s) :=
  .commit rfl

@[simp] theorem State.advance_zero (s : State) : s.advance 0 = s := by
  simp [State.advance]

/-- What the field step of `x` does in the state `s`: its field does not fit the captured bytes and it takes
BufferExhausted at the cursor (R145), or it does what the step of `x` does on the bits at
the cursor. -/
def Fsm.Performs (x : Fsm) (s t : State) : Prop :=
  (s.availableBits < s.cur.toNat + x.width ∧ t = s.raise .bufferExhausted s.cur) ∨
    ((x.width = 0 ∨ s.cur.toNat + x.width ≤ s.availableBits) ∧
      x.Does s.cur (memRead s.ib s.cur.toNat x.width) (s.advance x.width) t)

theorem performs_of_step {x : Fsm} {s t : State} {body : State → State} (hw : x.width = 0)
    (hdoes : ∀ v, x.Does s.cur v s (body s)) (ht : fieldStep s = .next t) (h : fieldStep s = .next (body s)) :
    x.Performs s t := by
  obtain rfl : body s = t := Host.Outcome.next.inj (h.symm.trans ht)
  refine .inr ⟨.inl hw, ?_⟩
  have hadv : s.advance x.width = s := by rw [hw, State.advance_zero]
  rw [hadv]
  exact hdoes _

theorem performs_of_read {x : Fsm} {s t : State} {body : BitVec x.width → State → State}
    (hw : 0 < x.width ∧ x.width ≤ 32) (hdoes : ∀ v u, x.Does s.cur v u (body v u)) (ht : fieldStep s = .next t)
    (h : fieldStep s = readThen x.width s body) : x.Performs s t :=
  (readThen_next hw (h.symm.trans ht)).imp_right fun ⟨hfit, heq⟩ => ⟨.inr hfit, heq ▸ hdoes _ _⟩

/-- Everything a field step can do. -/
theorem fieldStep_performs {s t : State} (h : fieldStep s = .next t) : s.fsm.Performs s t := by
  generalize hx : s.fsm = x
  cases x with
  | sIdle => exact nomatch (fieldStep_sIdle hx).symm.trans h
  | sDone => exact nomatch (fieldStep_sDone hx).symm.trans h
  | sLen => exact performs_of_step rfl (lenStep_does · s) h (fieldStep_sLen hx)
  | sDispatch => exact performs_of_step rfl (dispatchStep_does · s) h (fieldStep_sDispatch hx)
  | sCommit => exact performs_of_step rfl (commitStep_does · s) h (fieldStep_sCommit hx)
  | sSync => exact performs_of_read (by decide) syncBody_does h (fieldStep_sSync hx)
  | sCodec => exact performs_of_read (by decide) codecBody_does h (fieldStep_sCodec hx)
  | sAnc => exact performs_of_read (by decide) ancBody_does h (fieldStep_sAnc hx)
  | sNn => exact performs_of_read (by decide) nnBody_does h (fieldStep_sNn hx)
  | sProf => exact performs_of_read (by decide) profBody_does h (fieldStep_sProf hx)
  | sSr => exact performs_of_read (by decide) srBody_does h (fieldStep_sSr hx)
  | sCrc1 => exact performs_of_read (by decide) crc1Body_does h (fieldStep_sCrc1 hx)
  | sACfg => exact performs_of_read (by decide) aCfgBody_does h (fieldStep_sACfg hx)
  | sBSbt => exact performs_of_read (by decide) sbtBody_does h (fieldStep_sBSbt hx)
  | sB0Obj => exact performs_of_read (by decide) b0ObjBody_does h (fieldStep_sB0Obj hx)
  | sB0Obr => exact performs_of_read (by decide) b0ObrBody_does h (fieldStep_sB0Obr hx)
  | sB1Cfg => exact performs_of_read (by decide) b1CfgBody_does h (fieldStep_sB1Cfg hx)
  | sB1Bbr => exact performs_of_read (by decide) b1BbrBody_does h (fieldStep_sB1Bbr hx)
  | sB1Obj => exact performs_of_read (by decide) b1ObjBody_does h (fieldStep_sB1Obj hx)
  | sB1Obr => exact performs_of_read (by decide) b1ObrBody_does h (fieldStep_sB1Obr hx)
  | sCOrd => exact performs_of_read (by decide) ordBody_does h (fieldStep_sCOrd hx)
  | sRes => exact performs_of_read (by decide) resBody_does h (fieldStep_sRes hx)
  | sBr => exact performs_of_read (by decide) brBody_does h (fieldStep_sBr hx)
  | sCrc2 => exact performs_of_read (by decide) crc2Body_does h (fieldStep_sCrc2 hx)

end Sys2Proof.Machine
end

section
/-! SUPPORT. The frame of a field step: what it leaves unchanged, and the registers it writes (spec/10_state.md R23 to
R31). -/

namespace Sys2Proof.Machine

/-- `t` has the captured input of `s` and the model's own bookkeeping. -/
structure State.SameInput (s t : State) : Prop where
  ib : t.ib = s.ib
  len : t.len = s.len
  host : t.host = s.host
  initialised : t.initialised = s.initialised

theorem State.SameInput.refl (s : State) : s.SameInput s :=
  ⟨rfl, rfl, rfl, rfl⟩

theorem State.SameInput.trans {s t u : State} (hst : s.SameInput t) (htu : t.SameInput u) : s.SameInput u :=
  ⟨htu.ib.trans hst.ib, htu.len.trans hst.len, htu.host.trans hst.host, htu.initialised.trans hst.initialised⟩

theorem State.sameInput_advance (s : State) (n : Nat) : s.SameInput (s.advance n) :=
  ⟨rfl, rfl, rfl, rfl⟩

section
variable {x : Fsm} {p0 : StreamPos} {v : BitVec x.width} {s t : State}

theorem Fsm.Does.sameInput (h : x.Does p0 v s t) : s.SameInput t := by
  cases h <;> exact ⟨rfl, rfl, rfl, rfl⟩

theorem Fsm.Does.cur (h : x.Does p0 v s t) : t.cur = s.cur := by
  cases h <;> rfl

theorem Fsm.Does.r (h : x.Does p0 v s t) (hx : x ≠ .sCommit) : t.r = s.r := by
  cases h with
  | error => rfl
  | pass => rfl
  | commit hc => exact absurd hc hx

theorem Fsm.Does.f (h : x.Does p0 v s t) : t.f = x.put v s.f := by
  cases h with
  | error => rfl
  | pass => rfl
  | commit hc => subst hc; rfl

/-- The working registers stay, or the step's checks passed and they are what it leaves. -/
theorem Fsm.Does.w (h : x.Does p0 v s t) : t.w = s.w ∨ ∃ y, x.Passes v s y t.w := by
  cases h with
  | error => exact .inl rfl
  | pass y w hpass => exact .inr ⟨y, hpass⟩
  | commit => exact .inl rfl

theorem Fsm.Performs.sameInput (h : x.Performs s t) : s.SameInput t := by
  obtain ⟨-, rfl⟩ | ⟨-, hdoes⟩ := h
  · exact ⟨rfl, rfl, rfl, rfl⟩
  · exact (s.sameInput_advance x.width).trans hdoes.sameInput

theorem Fsm.Performs.r (h : x.Performs s t) (hx : x ≠ .sCommit) : t.r = s.r := by
  obtain ⟨-, rfl⟩ | ⟨-, hdoes⟩ := h
  · rfl
  · exact hdoes.r hx

theorem Fsm.Performs.f (h : x.Performs s t) :
    t.f = s.f ∨ t.f = x.put (memRead s.ib s.cur.toNat x.width) s.f := by
  obtain ⟨-, rfl⟩ | ⟨-, hdoes⟩ := h
  · exact .inl rfl
  · exact .inr hdoes.f

theorem Fsm.Performs.w (h : x.Performs s t) :
    t.w = s.w ∨ ∃ y, x.Passes (memRead s.ib s.cur.toNat x.width) (s.advance x.width) y t.w := by
  obtain ⟨-, rfl⟩ | ⟨-, hdoes⟩ := h
  · exact .inl rfl
  · exact hdoes.w

end

/-- Settles O40: no case of `Fsm.Does` writes the captured input, and only the commit writes a result. -/
theorem fieldStepsLeaveTheCapturedInput : Obligations.FieldStepsLeaveTheCapturedInput := by
  intro s t h
  have hp := fieldStep_performs h
  obtain ⟨hib, hlen, hhost, hinit⟩ := hp.sameInput
  exact ⟨hib, hlen, hhost, hinit, hp.r⟩

/-- Settles O41: `Fsm.put` writes the one register of its step (R27). -/
theorem fieldRegistersAreWrittenByTheirSteps : Obligations.FieldRegistersAreWrittenByTheirSteps := by
  intro s t h
  obtain hf | hf := (fieldStep_performs h).f
  · simp only [hf, true_or, and_self]
  · rw [hf]
    generalize s.fsm = x
    cases x <;> simp [Fsm.put, Fsm.width]

/-- Settles O42: a step whose checks pass changes the working registers of its row of R29 alone. -/
theorem workingRegistersAreWrittenByTheirSteps : Obligations.WorkingRegistersAreWrittenByTheirSteps := by
  intro s t h
  obtain hw | ⟨y, hpass⟩ := (fieldStep_performs h).w
  · simp only [hw, true_or, and_self]
  · generalize s.fsm = x at hpass ⊢
    cases x <;> grind [Fsm.Passes, State.advance_w]

theorem Fsm.width_le (x : Fsm) : x.width ≤ 12 := by
  cases x <;> decide

/-- Moving the cursor on by a step's field adds the width: `CUR` has room for it. -/
theorem State.advance_width_cur {s : State} {x : Fsm} (h : s.cur.toNat ≤ 72) :
    (s.advance x.width).cur.toNat = s.cur.toNat + x.width := by
  have := x.width_le
  simp only [State.advance_cur, BitVec.toNat_add, BitVec.toNat_ofNat]
  omega

/-- Settles O43: a step that reads its field moves the cursor by the field's width, within the captured bits. -/
theorem cursorMovesByTheFieldsWidth : Obligations.CursorMovesByTheFieldsWidth := by
  intro s t hcur h
  obtain ⟨hpast, rfl⟩ | ⟨hfit, hdoes⟩ := fieldStep_performs h
  · exact ⟨hcur, .inr ⟨rfl, hpast, rfl⟩⟩
  · have hmoved : t.cur.toNat = s.cur.toNat + s.fsm.width := by
      rw [hdoes.cur, State.advance_width_cur hcur]
    have := availableBits_le s
    exact ⟨by omega, .inl hmoved⟩

end Sys2Proof.Machine
end

section
/-! SUPPORT. The meaning of every form is a run of field steps on the form's operands. -/

namespace Sys2Proof.Machine

/-- One field step of a busy block on some operand: what `fieldStep` does where the field fits, and what the meaning of
a form does with an operand. -/
def State.OperandStep (s t : State) : Prop :=
  s.busy = true ∧ ∃ (p0 : StreamPos) (v : BitVec s.fsm.width), p0.toNat ≤ 72 ∧
    s.fsm.Does p0 v (s.advance s.fsm.width) t

/-- The steps from `s0` have led to `s`, and if the transaction is not over there, the step of `x` is next and
`F.prof` holds `prof`. -/
structure OnCourse (s0 : State) (x : Fsm) (prof : BitVec 3) (s : State) : Prop where
  reached : Relation.ReflTransGen State.OperandStep s0 s
  next : s.busy = true → s.fsm = x ∧ s.f.prof = prof

section
variable {s0 s : State} {x y : Fsm} {prof prof' : BitVec 3}

theorem onCourse_begin (s : State) : OnCourse s.beginTransaction .sLen 0 s.beginTransaction :=
  ⟨.refl, fun _ => ⟨rfl, rfl⟩⟩

/-- A step of a busy block keeps the course, if every way to pass its checks goes to `y`. -/
theorem OnCourse.step (h : OnCourse s0 x prof s) (hb : s.busy = true) {p0 : StreamPos} (hp0 : p0.toNat ≤ 72)
    {v : BitVec x.width} {t : State} (hdoes : x.Does p0 v (s.advance x.width) t)
    (hnext : ∀ u z w, u.f.prof = prof → x.Passes v u z w → z = y ∧ (x.put v u.f).prof = prof') :
    OnCourse s0 y prof' t := by
  obtain ⟨rfl, hprof⟩ := h.next hb
  refine ⟨h.reached.tail ⟨hb, p0, v, hp0, hdoes⟩, fun hbusy => ?_⟩
  cases hdoes with
  | error => exact nomatch hbusy
  | pass z w hpass => exact hnext _ z w hprof hpass
  | commit => exact nomatch hbusy

theorem OnCourse.over (h : OnCourse s0 x prof s) (hb : s.busy = false) : OnCourse s0 y prof' s :=
  ⟨h.reached, fun hbusy => absurd (hb.symm.trans hbusy) nofun⟩

/-- A field step of a form's operands. -/
theorem OnCourse.field (h : OnCourse s0 x prof s) (y : Fsm) (p0 : StreamPos) (v : BitVec x.width)
    {body : BitVec x.width → State → State} (hdoes : ∀ v u, x.Does p0 v u (body v u))
    (hnext : ∀ u z w, u.f.prof = prof → x.Passes v u z w → z = y ∧ (x.put v u.f).prof = prof')
    (hp0 : p0.toNat ≤ 72 := by decide) : OnCourse s0 y prof' (takeField x.width v body s) := by
  cases hb : s.busy with
  | false => rw [takeField_over hb]; exact h.over hb
  | true => rw [takeField_busy hb]; exact h.step hb hp0 (hdoes v _) hnext

/-- A step of a form that reads no bits. -/
theorem OnCourse.noField (h : OnCourse s0 x prof s) (y : Fsm) (hw : x.width = 0) {body : State → State}
    (hdoes : ∀ v u, x.Does 0 v u (body u))
    (hnext : ∀ v u z w, u.f.prof = prof → x.Passes v u z w → z = y ∧ (x.put v u.f).prof = prof') :
    OnCourse s0 y prof' (takeStep body s) := by
  cases hb : s.busy with
  | false => rw [takeStep_over hb]; exact h.over hb
  | true =>
    have hadv : s.advance x.width = s := by rw [hw, State.advance_zero]
    rw [takeStep_busy hb]
    exact h.step hb (p0 := 0) (v := 0) (by decide) (hadv.symm ▸ hdoes 0 s) (hnext 0)

end

/-- The common fields of a form lead to the branch of its coding profile. -/
theorem runPrefix_onCourse (nn prof : BitVec 3) (sr : BitVec 4) (crc1 : Byte) (s : State) :
    OnCourse s.beginTransaction (branchOf prof) prof (runPrefix nn prof sr crc1 s) :=
  onCourse_begin s
    |>.noField .sSync rfl lenStep_does (fun _ _ _ _ hp ⟨_, hz, _⟩ => ⟨hz, hp⟩)
    |>.field .sCodec 0 0xFFF#12 syncBody_does (fun _ _ _ hp ⟨hz, _⟩ => ⟨hz, hp⟩)
    |>.field .sAnc 0 2#4 codecBody_does (fun _ _ _ hp ⟨_, hz, _⟩ => ⟨hz, hp⟩)
    |>.field .sNn 0 0#1 ancBody_does (fun _ _ _ hp ⟨hz, _⟩ => ⟨hz, hp⟩)
    |>.field .sProf 0 nn nnBody_does (fun _ _ _ hp ⟨hz, _⟩ => ⟨hz, hp⟩)
    |>.field .sSr 0 prof profBody_does (fun _ _ _ _ ⟨hz, _⟩ => ⟨hz, rfl⟩)
    |>.field .sCrc1 0 sr srBody_does (fun _ _ _ hp ⟨_, _, hz, _⟩ => ⟨hz, hp⟩)
    |>.field .sDispatch 0 crc1 (body := fun _ => crc1Body) crc1Body_does (fun _ _ _ hp ⟨hz, _⟩ => ⟨hz, hp⟩)
    |>.noField (branchOf prof) rfl dispatchStep_does (fun _ _ _ _ hp ⟨_, hz, _⟩ => ⟨hp ▸ hz, hp⟩)

section
variable {s0 s : State} {prof : BitVec 3}

/-- `S_RES` of a form whose resolution field begins at `p0`. -/
theorem OnCourse.resolution (h : OnCourse s0 .sRes prof s) (p0 : StreamPos) (res : BitVec 2)
    (hp0 : p0.toNat ≤ 72 := by decide) :
    OnCourse s0 (if prof = 1#3 then .sCrc2 else .sBr) prof (takeField 2 res (resBody p0) s) :=
  h.field _ p0 res resBody_does (fun _ _ _ hp ⟨_, _, _, hz, _⟩ => ⟨hp ▸ hz, hp⟩) hp0

/-- `S_BR` of a form whose bitrate field begins at `p0`. -/
theorem OnCourse.bitrate (h : OnCourse s0 .sBr prof s) (p0 : StreamPos) (br : BitVec 4)
    (hp0 : p0.toNat ≤ 72 := by decide) : OnCourse s0 .sCrc2 prof (takeField 4 br (brBody p0) s) :=
  h.field _ p0 br brBody_does (fun _ _ _ hp ⟨_, _, hz, _⟩ => ⟨hz, hp⟩) hp0

/-- The last two steps of a form. -/
theorem OnCourse.finish (h : OnCourse s0 .sCrc2 prof s) (crc2 : Byte) : OnCourse s0 .sDone prof (runEnd crc2 s) :=
  h.field .sCommit 0 crc2 (body := fun _ => crc2Body) crc2Body_does (fun _ _ _ hp ⟨hz, _⟩ => ⟨hz, hp⟩)
    |>.noField _ rfl commitStep_does (fun _ _ _ _ _ hpass => hpass.elim)

/-- `S_B_SBT` of a form. -/
theorem OnCourse.soundBed (h : OnCourse s0 .sBSbt prof s) (sbt : BitVec 2) :
    OnCourse s0 (if sbt.toNat = 0 then .sB0Obj else .sB1Cfg) prof (takeField 2 sbt sbtBody s) :=
  h.field _ 0 sbt sbtBody_does (fun _ _ _ hp ⟨_, hz, _⟩ => ⟨hz, hp⟩)

end

/-- The meaning of a form is a run of field steps from the beginning of its transaction. -/
theorem exec_reaches {i : Instr} {s t : State} (h : exec i s = .next t) :
    Relation.ReflTransGen State.OperandStep s.beginTransaction t := by
  cases i with
  | hdrCh nn sr crc1 cfg res br crc2 _ =>
    obtain rfl := Host.Outcome.next.inj h
    exact (runPrefix_onCourse nn 0#3 sr crc1 s
      |>.field .sRes 0 cfg aCfgBody_does (fun _ _ _ hp ⟨_, _, _, _, hz, _⟩ => ⟨hz, hp⟩)
      |>.resolution 42 res
      |>.bitrate 44 br
      |>.finish crc2).reached
  | hdrObj nn sr crc1 obj obr res crc2 _ =>
    obtain rfl := Host.Outcome.next.inj h
    exact (runPrefix_onCourse nn 1#3 sr crc1 s
      |>.soundBed 0#2
      |>.field .sB0Obr 0 obj b0ObjBody_does (fun _ _ _ hp ⟨hz, _⟩ => ⟨hz, hp⟩)
      |>.field .sRes 0 obr b0ObrBody_does (fun _ _ _ hp ⟨_, _, hz, _⟩ => ⟨hz, hp⟩)
      |>.resolution 48 res
      |>.finish crc2).reached
  | hdrChobj nn sr crc1 cfg bbr obj obr res crc2 _ =>
    obtain rfl := Host.Outcome.next.inj h
    exact (runPrefix_onCourse nn 1#3 sr crc1 s
      |>.soundBed 1#2
      |>.field .sB1Bbr 0 cfg b1CfgBody_does (fun _ _ _ hp ⟨_, hz, _⟩ => ⟨hz, hp⟩)
      |>.field .sB1Obj 0 bbr b1BbrBody_does (fun _ _ _ hp ⟨_, _, hz, _⟩ => ⟨hz, hp⟩)
      |>.field .sB1Obr 0 obj b1ObjBody_does (fun _ _ _ hp ⟨hz, _⟩ => ⟨hz, hp⟩)
      |>.field .sRes 0 obr b1ObrBody_does (fun _ _ _ hp ⟨_, _, _, hz, _⟩ => ⟨hz, hp⟩)
      |>.resolution 59 res
      |>.finish crc2).reached
  | hdrHoa nn sr crc1 ord res br crc2 _ =>
    obtain rfl := Host.Outcome.next.inj h
    exact (runPrefix_onCourse nn 2#3 sr crc1 s
      |>.field .sRes 0 ord ordBody_does (fun _ _ _ hp ⟨_, hz, _⟩ => ⟨hz, hp⟩)
      |>.resolution 39 res
      |>.bitrate 41 br
      |>.finish crc2).reached
  | hdrRsvSbt nn sr crc1 sbt _ =>
    obtain rfl := Host.Outcome.next.inj h
    exact (runPrefix_onCourse nn 1#3 sr crc1 s |>.soundBed sbt).reached
  | hdrRsvProf3 nn sr crc1 _ =>
    obtain rfl := Host.Outcome.next.inj h
    exact (runPrefix_onCourse nn 3#3 sr crc1 s).reached
  | hdrRsvProf4to7 nn prof sr crc1 _ =>
    obtain rfl := Host.Outcome.next.inj h
    exact (runPrefix_onCourse nn prof sr crc1 s).reached

theorem State.OperandStep.sameInput {s t : State} (h : s.OperandStep t) : s.SameInput t := by
  obtain ⟨-, _, _, -, hdoes⟩ := h
  exact (s.sameInput_advance _).trans hdoes.sameInput

theorem State.sameInput_of_reaches {s t : State} (hreach : Relation.ReflTransGen State.OperandStep s t) :
    s.SameInput t := by
  induction hreach with
  | refl => exact .refl s
  | tail _ hstep ih => exact ih.trans hstep.sameInput

/-- Settles O39: a form is a run of field steps, none of which writes the captured input or the bookkeeping. -/
theorem formsLeaveTheCapturedInput : Obligations.FormsLeaveTheCapturedInput := by
  intro i s t h
  obtain ⟨hib, hlen, hhost, hinit⟩ := State.sameInput_of_reaches (exec_reaches h)
  exact ⟨hib, hlen, hhost, hinit⟩

end Sys2Proof.Machine
end

section
/-! SUPPORT. The numbers the tables and the operand arithmetic can give (spec/20_memory.md R66 to R72,
spec/30_encoding.md R107). -/

namespace Sys2Proof.Machine

theorem samplingRate_some {i rate : Nat} (h : samplingRate i = some rate) :
    i < 9 ∧ (BitVec.ofNat 32 rate).toNat = rate := by
  obtain ⟨hi, hr⟩ := List.getElem?_eq_some_iff.mp h
  have hsmall : ∀ r ∈ romSr, r < 2 ^ 32 := by decide
  exact ⟨hi, Nat.mod_eq_of_lt (hsmall rate (hr ▸ List.getElem_mem hi))⟩

/-- An entry that is no placeholder stands in the configuration's table. -/
theorem bitrateEntry_mem {c i v : Nat} (h : bitrateEntry c i = some v) (hv : v ≠ 0) :
    ∃ t, romBr[c]? = some (some t) ∧ v ∈ t := by
  obtain ⟨t, ht, rfl⟩ := Option.map_eq_some_iff.mp h
  refine ⟨t, Option.join_eq_some_iff.mp ht, ?_⟩
  by_cases hi : i < t.length
  · simp only [List.getD_eq_getElem _ _ hi, List.getElem_mem]
  · exact absurd (List.getD_eq_default _ _ (Nat.le_of_not_lt hi)) hv

theorem bitrateEntry_range {c i v : Nat} (h : bitrateEntry c i = some v) (hv : v ≠ 0) : 16000 ≤ v ∧ v ≤ 896000 := by
  have hall : ∀ t ∈ romBr, ∀ l ∈ t, ∀ v ∈ l, v ≠ 0 → 16000 ≤ v ∧ v ≤ 896000 := by decide
  obtain ⟨t, ht, hmem⟩ := bitrateEntry_mem h hv
  exact hall _ (List.mem_of_getElem? ht) t rfl v hmem hv

/-- The mono table, which prices an object, ends at 192 kbit/s. -/
theorem bitrateEntry_mono {i v : Nat} (h : bitrateEntry 0 i = some v) (hv : v ≠ 0) : v ≤ 192000 := by
  have hall : ∀ l ∈ romBr[0]?.join, ∀ v ∈ l, v ≤ 192000 := by decide
  obtain ⟨t, ht, hmem⟩ := bitrateEntry_mem h hv
  exact hall t (Option.join_eq_some_iff.mpr ht) v hmem

/-- A lookup that succeeds gives the table's entry, held in 32 bits without loss. -/
theorem bitrateLookup_ok {c : Nat} {i : BitVec 4} {b : BitVec 32} (h : bitrateLookup c i = .ok b) :
    bitrateEntry c i.toNat = some b.toNat ∧ b.toNat ≠ 0 := by
  obtain ⟨-, he⟩ | ⟨-, he⟩ | ⟨v, hv, hentry, hok⟩ := bitrateLookup_cases c i
  · exact nomatch he.symm.trans h
  · exact nomatch he.symm.trans h
  · obtain rfl : BitVec.ofNat 32 v = b := Except.ok.inj (hok.symm.trans h)
    have hrange := bitrateEntry_range hentry hv
    have hnat : (BitVec.ofNat 32 v).toNat = v := Nat.mod_eq_of_lt (by omega)
    exact ⟨hnat.symm ▸ hentry, hnat.symm ▸ hv⟩

/-- Slot 5, the bed 22.2, holds no bitrate table. -/
theorem ne_five_of_bitrateEntry {c i v : Nat} (h : bitrateEntry c i = some v) : c ≠ 5 := by
  rintro rfl
  exact nomatch h

/-- The fixed mapping's channel counts: 24 for 22.2 alone. -/
theorem fixedChannels_mem :
    ∀ c < 14, ∀ n ∈ fixedChannels c, (c = 5 ∧ n = 24) ∨ n ∈ [1, 2, 4, 6, 8, 10, 12] := by
  decide

theorem fixedChannels_le : ∀ c < 14, ∀ n ∈ fixedChannels c, n ≤ 24 := by
  decide

/-- The channel counts of a bed: 24 for 22.2 alone, and 0 where the named table has no row. -/
theorem nmcLookup_mem : ∀ c < 14, c ≠ 5 → (nmcLookup c).getD 0 ∈ [0, 2, 4, 6, 8, 10, 12] := by
  decide

theorem nmcLookup_le (c : Nat) : (nmcLookup c).getD 0 ≤ 24 := by
  simp only [nmcLookup, romNmc, nmcFind]
  repeat' split
  all_goals decide

/-- The orders 1 to 3, their tables and their channels (spec/43_profile2_ambisonic.md R231). -/
theorem ambisonic_legal {v : BitVec 4} (hv : v.toNat ≤ 2) :
    1 ≤ (ambisonicOrder v).toNat ∧ (ambisonicOrder v).toNat ≤ 3 ∧
      (ambisonicTable (ambisonicOrder v)).toNat = 10 + (ambisonicOrder v).toNat ∧
      (ambisonicChannels (ambisonicOrder v)).toNat ∈ [4, 9, 16] := by
  obtain rfl | rfl | rfl : v = 0#4 ∨ v = 1#4 ∨ v = 2#4 := by bv_omega
  · decide
  · decide
  · decide

theorem objectCount_toNat (v : BitVec 7) : (objectCount v).toNat = v.toNat + 1 := by
  unfold objectCount
  bv_omega

theorem configIndex_toNat {v : BitVec 7} (h : v.toNat < 14) : (configIndex v).toNat = v.toNat := by
  simp only [configIndex, BitVec.toNat_setWidth]
  omega

theorem layoutOf_absent {present : Bool} (v : BitVec 7) (h : present = false) : (layoutOf present v).2 = 0 := by
  subst h
  rfl

/-- The total bitrate of content with objects stays in 32 bits and in R30's range (spec/42_profile1_object.md R215). -/
theorem objectBitrate_range {bed perObject : BitVec 32} {count : BitVec 8} (hbed : bed.toNat ≤ 896000)
    (hobj : 16000 ≤ perObject.toNat ∧ perObject.toNat ≤ 192000) (hcount : 1 ≤ count.toNat ∧ count.toNat ≤ 128) :
    16000 ≤ (objectBitrate bed perObject count).toNat ∧ (objectBitrate bed perObject count).toNat ≤ 25472000 := by
  have hlow : 16000 * 1 ≤ perObject.toNat * count.toNat := Nat.mul_le_mul hobj.1 hcount.1
  have hhigh : perObject.toNat * count.toNat ≤ 192000 * 128 := Nat.mul_le_mul hobj.2 hcount.2
  have hnat : (objectBitrate bed perObject count).toNat = bed.toNat + perObject.toNat * count.toNat :=
    Nat.mod_eq_of_lt (by omega)
  omega

end Sys2Proof.Machine
end

section
/-! SUPPORT. Every step whose checks pass leaves `CUR`, `F` and `W_*` as the next step needs them: `State.Stage` goes
from step to step. -/

namespace Sys2Proof.Machine

/-- A cursor at a known offset, moved on by a field. -/
theorem cursor_add {c : StreamPos} {n : Nat} (w : Nat) (hc : c.toNat = n) (hn : n + w < 128) :
    (c + BitVec.ofNat 7 w).toNat = n + w := by
  simp only [BitVec.toNat_add, BitVec.toNat_ofNat]
  omega

/-- A cursor at the offset of its content type. -/
theorem State.tailAt_of_offset {s : State} {ch obj chobj hoa : Nat}
    (h : (s.w.ctype = 1 ∧ s.cur.toNat = ch) ∨ (s.w.ctype = 2 ∧ s.cur.toNat = obj) ∨
      (s.w.ctype = 3 ∧ s.cur.toNat = chobj) ∨ (s.w.ctype = 4 ∧ s.cur.toNat = hoa)) : s.TailAt ch obj chobj hoa := by
  obtain ⟨hc, h⟩ | ⟨hc, h⟩ | ⟨hc, h⟩ | ⟨hc, h⟩ := h <;> simp [State.TailAt, hc, h]

/-- A tail field read: each content type's offset moves on by its width. -/
theorem State.TailAt.add {s : State} {ch obj chobj hoa : Nat} (h : s.TailAt ch obj chobj hoa) (w : Nat) {t : State}
    (hctype : t.w.ctype = s.w.ctype) (hcur : t.cur = s.cur + BitVec.ofNat 7 w)
    (hsmall : ch + w < 128 ∧ obj + w < 128 ∧ chobj + w < 128 ∧ hoa + w < 128 := by decide) :
    t.TailAt (ch + w) (obj + w) (chobj + w) (hoa + w) := by
  obtain ⟨h1, h2, h3, h4⟩ := h
  rw [State.TailAt, hctype, hcur]
  exact ⟨fun hc => cursor_add w (h1 hc) (by omega), fun hc => cursor_add w (h2 hc) (by omega),
    fun hc => cursor_add w (h3 hc) (by omega), fun hc => cursor_add w (h4 hc) (by omega)⟩

/-- The offsets of profile 1 alone count for content with objects. -/
theorem State.TailAt.object {s : State} {ch obj chobj hoa : Nat} (h : s.TailAt ch obj chobj hoa)
    (hctype : s.w.ctype = 2 ∨ s.w.ctype = 3) (ch' hoa' : Nat) : s.TailAt ch' obj chobj hoa' := by
  obtain ⟨-, hobj, hchobj, -⟩ := h
  obtain hc | hc := hctype
  · exact State.tailAt_of_offset (.inr (.inl ⟨hc, hobj hc⟩))
  · exact State.tailAt_of_offset (.inr (.inr (.inl ⟨hc, hchobj hc⟩)))

/-- The offsets of the profiles 0 and 2 alone count for content without objects. -/
theorem State.TailAt.noObject {s : State} {ch obj chobj hoa : Nat} (h : s.TailAt ch obj chobj hoa)
    (hctype : s.w.ctype = 1 ∨ s.w.ctype = 4) (obj' chobj' : Nat) : s.TailAt ch obj' chobj' hoa := by
  obtain ⟨hch, -, -, hhoa⟩ := h
  obtain hc | hc := hctype
  · exact State.tailAt_of_offset (.inl ⟨hc, hch hc⟩)
  · exact State.tailAt_of_offset (.inr (.inr (.inr ⟨hc, hhoa hc⟩)))

/-- The content type each profile's branch leaves (spec/10_state.md R30). -/
theorem State.BranchDone.contentType {s : State} (h : s.BranchDone) :
    (s.f.prof = 1 ∧ (s.w.ctype = 2 ∨ s.w.ctype = 3)) ∨ (s.f.prof ≠ 1 ∧ (s.w.ctype = 1 ∨ s.w.ctype = 4)) := by
  obtain ⟨hprof, hc, -⟩ | ⟨hprof, hc, -⟩ | ⟨hprof, hc, -⟩ | ⟨hprof, hc, -⟩ := h <;> simp [hprof, hc]

/-- `s`, its field read and its registers written, at the step `y`: where a step of `x` whose checks pass goes. -/
def State.passed (s : State) (x : Fsm) (v : BitVec x.width) (y : Fsm) (w : WorkRegs) : State :=
  { s.advance x.width with f := x.put v s.f, w := w }.goTo y

/-- The branches of profile 1 leave the total bitrate (spec/42_profile1_object.md R205, R211). -/
theorem State.BranchDone.bitrateDone {s : State} (h : s.BranchDone) (hprof : s.f.prof = 1) : s.BitrateDone := by
  obtain ⟨h0, -⟩ | ⟨-, hc, -, -, -, -, -, -, hbr⟩ | ⟨-, hc, -, -, -, -, -, hbr⟩ | ⟨h2, -⟩ := h
  · exact absurd (h0.symm.trans hprof) (by decide)
  · exact ⟨hbr.1, hbr.2, fun h1 => absurd (h1.symm.trans hc) (by decide)⟩
  · exact ⟨hbr.1, hbr.2, fun h1 => absurd (h1.symm.trans hc) (by decide)⟩
  · exact absurd (h2.symm.trans hprof) (by decide)

section
variable {s : State} {y : Fsm} {w : WorkRegs}

/-- `S_SR` leaves the sampling rate resolved. -/
theorem sr_stage {v : BitVec 4} (hst : s.Stage) (hx : s.fsm = .sSr) (hp : Fsm.sSr.Passes v s y w) :
    (s.passed .sSr v y w).Stage := by
  simp only [State.Stage, hx] at hst
  obtain ⟨hcur, hlen, hw, hcodec⟩ := hst
  obtain ⟨rate, hr, rfl, rfl⟩ := hp
  obtain ⟨hsr, hnat⟩ := samplingRate_some hr
  have honly : { s.w with rate := BitVec.ofNat 32 rate } = { WorkRegs.zero with rate := BitVec.ofNat 32 rate } := by
    rw [hw]
  exact And.intro (cursor_add 4 hcur (by decide)) ⟨hlen, honly, hcodec, hsr, hr.trans (congrArg some hnat.symm)⟩

/-- `S_DISPATCH` goes to the branch of the coding profile. -/
theorem dispatch_stage {v : BitVec 0} (hst : s.Stage) (hx : s.fsm = .sDispatch) (hp : Fsm.sDispatch.Passes v s y w) :
    (s.passed .sDispatch v y w).Stage := by
  simp only [State.Stage, hx] at hst
  obtain ⟨hcur, hlen, hw, hrate⟩ := hst
  obtain ⟨hprof, rfl, rfl⟩ := hp
  have hcur' := cursor_add 0 hcur (by decide)
  obtain h | h | h : s.f.prof = 0#3 ∨ s.f.prof = 1#3 ∨ s.f.prof = 2#3 := by bv_omega
  · rw [h]
    exact And.intro hcur' ⟨hlen, hw, hrate, h⟩
  · rw [h]
    exact And.intro hcur' ⟨hlen, hw, hrate, h⟩
  · rw [h]
    exact And.intro hcur' ⟨hlen, hw, hrate, h⟩

/-- `S_A_CFG` leaves the branch of profile 0 done. -/
theorem aCfg_stage {v : BitVec 7} (hst : s.Stage) (hx : s.fsm = .sACfg) (hp : Fsm.sACfg.Passes v s y w) :
    (s.passed .sACfg v y w).Stage := by
  simp only [State.Stage, hx] at hst
  obtain ⟨hcur, hlen, hw, hrate, hprof⟩ := hst
  obtain ⟨n, present, hv, hn, rfl, rfl⟩ := hp
  have htbl := configIndex_toNat hv
  have hch : (BitVec.ofNat 8 n).toNat = n := by
    have := fixedChannels_le _ hv n hn
    exact Nat.mod_eq_of_lt (by omega)
  have hfixed : fixedChannels (configIndex v).toNat = some (BitVec.ofNat 8 n).toNat := by
    rw [htbl, hch]
    exact hn
  exact And.intro (State.tailAt_of_offset (.inl ⟨rfl, cursor_add 7 hcur (by decide)⟩))
    ⟨hlen, hrate, .inl ⟨hprof, rfl, htbl.trans_lt hv, hfixed, congrArg WorkRegs.obj hw, congrArg WorkRegs.order hw,
      layoutOf_absent v⟩⟩

/-- `S_B_SBT` goes to the branch of the sound-bed type. -/
theorem sbt_stage {v : BitVec 2} (hst : s.Stage) (hx : s.fsm = .sBSbt) (hp : Fsm.sBSbt.Passes v s y w) :
    (s.passed .sBSbt v y w).Stage := by
  simp only [State.Stage, hx] at hst
  obtain ⟨hcur, hlen, hw, hrate, hprof⟩ := hst
  obtain ⟨-, rfl, rfl⟩ := hp
  have hcur' := cursor_add 2 hcur (by decide)
  split
  · exact And.intro hcur' ⟨hlen, hw, hrate, hprof⟩
  · exact And.intro hcur' ⟨hlen, hw, hrate, hprof⟩

/-- `S_B0_OBR` leaves the branch of object-only content done. -/
theorem b0Obr_stage {v : BitVec 4} (hst : s.Stage) (hx : s.fsm = .sB0Obr) (hp : Fsm.sB0Obr.Passes v s y w) :
    (s.passed .sB0Obr v y w).Stage := by
  simp only [State.Stage, hx] at hst
  obtain ⟨hcur, hlen, hrate, hprof, hw⟩ := hst
  obtain ⟨b, hb, rfl, rfl⟩ := hp
  have hobj : s.w.obj.toNat = s.f.obj.toNat + 1 := by rw [hw]; exact objectCount_toNat _
  have hcount : 1 ≤ s.w.obj.toNat ∧ s.w.obj.toNat ≤ 128 := by omega
  obtain ⟨hentry, hne⟩ := bitrateLookup_ok hb
  have hbr := objectBitrate_range (bed := 0) (by decide)
    ⟨(bitrateEntry_range hentry hne).1, bitrateEntry_mono hentry hne⟩ hcount
  exact And.intro (State.tailAt_of_offset (.inr (.inl ⟨rfl, cursor_add 4 hcur (by decide)⟩)))
    ⟨hlen, hrate, .inr (.inl ⟨hprof, rfl, rfl, hcount.1, hcount.2, congrArg WorkRegs.layV hw, congrArg WorkRegs.lay hw,
      congrArg WorkRegs.order hw, hbr⟩)⟩

/-- `S_B1_BBR` leaves the bed's bitrate, so that the bed is none without a table. -/
theorem b1Bbr_stage {v : BitVec 4} (hst : s.Stage) (hx : s.fsm = .sB1Bbr) (hp : Fsm.sB1Bbr.Passes v s y w) :
    (s.passed .sB1Bbr v y w).Stage := by
  simp only [State.Stage, hx] at hst
  obtain ⟨hcur, hlen, hw, hrate, hprof, hcfg⟩ := hst
  obtain ⟨b, hb, rfl, rfl⟩ := hp
  obtain ⟨hentry, hne⟩ := bitrateLookup_ok hb
  have hbed : { s.w with bedBr := b } = { WorkRegs.zero with rate := s.w.rate, bedBr := b } := by
    rw [hw]
  exact And.intro (cursor_add 4 hcur (by decide))
    ⟨hlen, hrate, hprof, hcfg, hentry, fun h => hne (congrArg BitVec.toNat h), hbed⟩

/-- `S_B1_OBR` leaves the branch of channel-and-object content done. -/
theorem b1Obr_stage {v : BitVec 4} (hst : s.Stage) (hx : s.fsm = .sB1Obr) (hp : Fsm.sB1Obr.Passes v s y w) :
    (s.passed .sB1Obr v y w).Stage := by
  simp only [State.Stage, hx] at hst
  obtain ⟨hcur, hlen, hrate, hprof, hcfg, hbed, hbedne, hw⟩ := hst
  obtain ⟨b, present, hb, rfl, rfl⟩ := hp
  have hobj : s.w.obj.toNat = s.f.obj.toNat + 1 := by rw [hw]; exact objectCount_toNat _
  have hcount : 1 ≤ s.w.obj.toNat ∧ s.w.obj.toNat ≤ 128 := by omega
  have hch := nmcLookup_mem _ hcfg (ne_five_of_bitrateEntry hbed)
  have hnat : (BitVec.ofNat 8 ((nmcLookup s.f.cfg.toNat).getD 0)).toNat = (nmcLookup s.f.cfg.toNat).getD 0 := by
    have := nmcLookup_le s.f.cfg.toNat
    exact Nat.mod_eq_of_lt (by omega)
  obtain ⟨hentry, hne⟩ := bitrateLookup_ok hb
  have hbr := objectBitrate_range (bitrateEntry_range hbed (mt (BitVec.eq_of_toNat_eq (y := 0)) hbedne)).2
    ⟨(bitrateEntry_range hentry hne).1, bitrateEntry_mono hentry hne⟩ hcount
  exact And.intro (State.tailAt_of_offset (.inr (.inr (.inl ⟨rfl, cursor_add 4 hcur (by decide)⟩))))
    ⟨hlen, hrate, .inr (.inr (.inl ⟨hprof, rfl, hnat.symm ▸ hch, hcount.1, hcount.2, layoutOf_absent _,
      congrArg WorkRegs.order hw, hbr⟩))⟩

/-- `S_C_ORD` leaves the branch of profile 2 done. -/
theorem ord_stage {v : BitVec 4} (hst : s.Stage) (hx : s.fsm = .sCOrd) (hp : Fsm.sCOrd.Passes v s y w) :
    (s.passed .sCOrd v y w).Stage := by
  simp only [State.Stage, hx] at hst
  obtain ⟨hcur, hlen, hw, hrate, hprof⟩ := hst
  obtain ⟨hv, rfl, rfl⟩ := hp
  obtain ⟨hlow, hhigh, htbl, hch⟩ := ambisonic_legal hv
  exact And.intro (State.tailAt_of_offset (.inr (.inr (.inr ⟨rfl, cursor_add 4 hcur (by decide)⟩))))
    ⟨hlen, hrate, .inr (.inr (.inr ⟨hprof, rfl, hlow, hhigh, htbl, hch, congrArg WorkRegs.obj hw,
      congrArg WorkRegs.layV hw, congrArg WorkRegs.lay hw⟩))⟩

/-- `S_RES` leaves a legal resolution; profile 1 has its total bitrate already. -/
theorem res_stage {v : BitVec 2} (hst : s.Stage) (hx : s.fsm = .sRes) (hp : Fsm.sRes.Passes v s y w) :
    (s.passed .sRes v y w).Stage := by
  simp only [State.Stage, hx] at hst
  obtain ⟨htail, hlen, hrate, hbranch⟩ := hst
  obtain ⟨bits, fmt, hres, rfl, rfl⟩ := hp
  split
  · next hprof =>
    have hctype := hbranch.contentType.resolve_right fun h => h.1 hprof
    exact And.intro ((htail.object hctype.2 46 43).add 2 rfl rfl)
      ⟨hlen, hrate, hbranch, hres, hbranch.bitrateDone hprof⟩
  · next hprof => exact And.intro (htail.add 2 rfl rfl) ⟨hlen, hrate, hbranch, hres, hprof⟩

/-- `S_BR` leaves a total bitrate in range. -/
theorem br_stage {v : BitVec 4} (hst : s.Stage) (hx : s.fsm = .sBr) (hp : Fsm.sBr.Passes v s y w) :
    (s.passed .sBr v y w).Stage := by
  simp only [State.Stage, hx] at hst
  obtain ⟨htail, hlen, hrate, hbranch, hres, hprof⟩ := hst
  obtain ⟨b, hb, rfl, rfl⟩ := hp
  obtain ⟨hentry, hne⟩ := bitrateLookup_ok hb
  obtain ⟨hlow, hhigh⟩ := bitrateEntry_range hentry hne
  have hbranch' : (s.passed .sBr v .sCrc2 { s.w with br := b }).BranchDone := by
    obtain h | ⟨h1, -⟩ | ⟨h1, -⟩ | h := hbranch
    · exact .inl h
    · exact absurd h1 hprof
    · exact absurd h1 hprof
    · exact .inr (.inr (.inr h))
  have hctype := hbranch.contentType.resolve_left fun h => hprof h.1
  exact And.intro ((htail.noObject hctype.2 46 57).add 4 rfl rfl)
    ⟨hlen, hrate, hbranch', hres, hlow, hhigh.trans (by decide), fun _ => ne_five_of_bitrateEntry hentry⟩

end

/-- A step of the FSM whose checks pass leaves the next step what it needs. -/
theorem State.Stage.pass {s : State} {x y : Fsm} {v : BitVec x.width} {w : WorkRegs} (hst : s.Stage) (hx : s.fsm = x)
    (hp : x.Passes v (s.advance x.width) y w) : (s.passed x v y w).Stage := by
  cases x with
  | sSr => exact sr_stage hst hx hp
  | sDispatch => exact dispatch_stage hst hx hp
  | sACfg => exact aCfg_stage hst hx hp
  | sBSbt => exact sbt_stage hst hx hp
  | sB0Obr => exact b0Obr_stage hst hx hp
  | sB1Bbr => exact b1Bbr_stage hst hx hp
  | sB1Obr => exact b1Obr_stage hst hx hp
  | sCOrd => exact ord_stage hst hx hp
  | sRes => exact res_stage hst hx hp
  | sBr => exact br_stage hst hx hp
  | sLen =>
    simp only [State.Stage, hx] at hst
    obtain ⟨hlen, rfl, rfl⟩ := hp
    obtain ⟨hcur, hw⟩ := hst
    exact And.intro (cursor_add 0 hcur (by decide)) ⟨hlen, hw⟩
  | sSync | sAnc | sNn | sProf | sCrc1 =>
    simp only [State.Stage, hx] at hst
    obtain ⟨rfl, rfl⟩ := hp
    obtain ⟨hcur, hrest⟩ := hst
    exact And.intro (cursor_add _ hcur (by decide)) hrest
  | sCodec =>
    simp only [State.Stage, hx] at hst
    obtain ⟨hv, rfl, rfl⟩ := hp
    obtain ⟨hcur, hlen, hw⟩ := hst
    exact And.intro (cursor_add 4 hcur (by decide)) ⟨hlen, hw, BitVec.eq_of_toNat_eq hv⟩
  | sB0Obj =>
    simp only [State.Stage, hx] at hst
    obtain ⟨rfl, rfl⟩ := hp
    obtain ⟨hcur, hlen, hw, hrate, hprof⟩ := hst
    have hobj : { s.w with obj := objectCount v } = { WorkRegs.zero with rate := s.w.rate, obj := objectCount v } := by
      rw [hw]
    exact And.intro (cursor_add 7 hcur (by decide)) ⟨hlen, hrate, hprof, hobj⟩
  | sB1Cfg =>
    simp only [State.Stage, hx] at hst
    obtain ⟨hv, rfl, rfl⟩ := hp
    obtain ⟨hcur, hlen, hw, hrate, hprof⟩ := hst
    exact And.intro (cursor_add 7 hcur (by decide)) ⟨hlen, hw, hrate, hprof, hv⟩
  | sB1Obj =>
    simp only [State.Stage, hx] at hst
    obtain ⟨rfl, rfl⟩ := hp
    obtain ⟨hcur, hlen, hrate, hprof, hcfg, hbed, hne, hw⟩ := hst
    have hobj : { s.w with obj := objectCount v } =
        { WorkRegs.zero with rate := s.w.rate, bedBr := s.w.bedBr, obj := objectCount v } := by
      rw [hw]
    exact And.intro (cursor_add 7 hcur (by decide)) ⟨hlen, hrate, hprof, hcfg, hbed, hne, hobj⟩
  | sCrc2 =>
    simp only [State.Stage, hx] at hst
    obtain ⟨rfl, rfl⟩ := hp
    obtain ⟨htail, hrest⟩ := hst
    exact And.intro (htail.add 8 rfl rfl) hrest
  | sIdle | sCommit | sDone => exact hp.elim

end Sys2Proof.Machine
end

section
/-! SUPPORT. The invariant of the block's states: every way a step can go keeps it. -/

namespace Sys2Proof.Machine

theorem State.TailAt.cur_le {s : State} {ch obj chobj hoa n : Nat} (h : s.TailAt ch obj chobj hoa)
    (hb : s.BranchDone) (hn : ch ≤ n ∧ obj ≤ n ∧ chobj ≤ n ∧ hoa ≤ n) : s.cur.toNat ≤ n := by
  obtain ⟨h1, h2, h3, h4⟩ := h
  obtain ⟨n1, n2, n3, n4⟩ := hn
  obtain ⟨-, hc | hc⟩ | ⟨-, hc | hc⟩ := hb.contentType
  · exact (h2 hc).trans_le n2
  · exact (h3 hc).trans_le n3
  · exact (h1 hc).trans_le n1
  · exact (h4 hc).trans_le n4

/-- The field of the step `STATE` names ends within the 69 bits of the longest header. -/
theorem State.Stage.cur_le {s : State} (h : s.Stage) : s.cur.toNat + s.fsm.width ≤ 69 := by
  generalize hx : s.fsm = x
  simp only [State.Stage, hx] at h
  cases x with
  | sRes =>
    obtain ⟨htail, -, -, hbranch⟩ := h
    exact Nat.add_le_of_le_sub (by decide) (htail.cur_le hbranch (by decide))
  | sBr | sCrc2 | sCommit =>
    obtain ⟨htail, -, -, hbranch, -⟩ := h
    exact Nat.add_le_of_le_sub (by decide) (htail.cur_le hbranch (by decide))
  | sDone => exact h
  | sIdle =>
    rw [h]
    decide
  | _ =>
    obtain ⟨hcur, -⟩ := h
    rw [hcur]
    decide

/-- The thirteen codes (spec/60_exceptions.md R300). -/
theorem HeaderError.code_range (e : HeaderError) : 1 ≤ e.code.toNat ∧ e.code.toNat ≤ 13 := by
  cases e <;> decide

/-- A transaction under way: the flags, the results and the error registers as the accept left them. -/
structure State.Running (s : State) : Prop where
  initialised : s.initialised = true
  busy : s.busy = true
  done : s.done = false
  err : s.err = false
  r : s.r = ResultRegs.zero
  errCode : s.errCode = 0
  errPos : s.errPos = 0

theorem State.Inv.running {s : State} (h : s.Inv) (hb : s.busy = true) : s.Running := by
  have hfsm := h.busyIff.mp hb
  have hdone : s.done = false := Bool.eq_false_iff.mpr fun hd => hfsm.2 (h.doneIff.mp hd)
  have herr : s.err = false := Bool.eq_false_iff.mpr fun he => absurd (h.errDone he) (Bool.eq_false_iff.mp hdone)
  exact ⟨h.initialised, hb, hdone, herr, h.noResult (.inl hdone), (h.noError herr).1, (h.noError herr).2⟩

section
variable {s : State} (h : s.Running)
include h

/-- Reading a field and writing registers leaves the transaction under way. -/
theorem State.Running.update (cur : StreamPos) (f : FieldRegs) (w : WorkRegs) :
    ({ s with cur := cur, f := f, w := w } : State).Running :=
  ⟨h.initialised, h.busy, h.done, h.err, h.r, h.errCode, h.errPos⟩

theorem State.Running.inv_goTo {x : Fsm} (hx : x ≠ .sIdle ∧ x ≠ .sDone) (hst : (s.goTo x).Stage) : (s.goTo x).Inv where
  initialised := h.initialised
  busyIff := iff_of_true h.busy hx
  doneIff := iff_of_false (Bool.eq_false_iff.mp h.done) hx.2
  errDone he := absurd he (Bool.eq_false_iff.mp h.err)
  noResult _ := h.r
  result hd := absurd hd (Bool.eq_false_iff.mp h.done)
  noError _ := ⟨h.errCode, h.errPos⟩
  errorCode he := absurd he (Bool.eq_false_iff.mp h.err)
  stage := hst

theorem State.Running.inv_raise (e : HeaderError) {pos : StreamPos} (hpos : pos.toNat ≤ 72) (hcur : s.cur.toNat ≤ 69) :
    (s.raise e pos).Inv where
  initialised := h.initialised
  busyIff := iff_of_false nofun nofun
  doneIff := iff_of_true rfl rfl
  errDone _ := rfl
  noResult _ := h.r
  result _ := nofun
  noError := nofun
  errorCode _ := ⟨e.code_range.1, e.code_range.2, hpos⟩
  stage := hcur

theorem State.Running.inv_commit (hcur : s.cur.toNat ≤ 69) (hlegal : (commitStep s).r.Legal) : (commitStep s).Inv where
  initialised := h.initialised
  busyIff := iff_of_false nofun nofun
  doneIff := iff_of_true rfl rfl
  errDone := nofun
  noResult := nofun
  result _ _ := hlegal
  noError _ := ⟨h.errCode, h.errPos⟩
  errorCode := nofun
  stage := hcur

end

/-- What the branches leave for the commit are the rows of R37. -/
theorem commitStep_contentLegal {s : State} (hb : s.BranchDone) (hbr : s.BitrateDone) :
    (commitStep s).r.ContentLegal := by
  obtain ⟨-, hc, htbl, hfix, hobj, horder, -⟩ | ⟨-, hc, hch, hlow, hhigh, hlayV, hlay, horder, -⟩ |
    ⟨-, hc, hch, hlow, hhigh, -, horder, -⟩ | ⟨-, hc, hlow, hhigh, -, hch, hobj, hlayV, hlay⟩ := hb
  · have hmem := (fixedChannels_mem _ htbl _ hfix).resolve_left fun h => hbr.2.2 hc h.1
    exact .inl ⟨hc, hmem, hobj, horder⟩
  · exact .inr (.inl ⟨hc, hch, hlow, hhigh, hlayV, hlay, horder⟩)
  · exact .inr (.inr (.inl ⟨hc, hch, hlow, hhigh, horder⟩))
  · exact .inr (.inr (.inr ⟨hc, hch, hobj, hlayV, hlay, hlow, hhigh⟩))

/-- The rows of R37 have 1 to 140 channels and objects together (R36). -/
theorem ResultRegs.ContentLegal.total_range {r : ResultRegs} (h : r.ContentLegal) :
    1 ≤ r.chCount.toNat + r.objCount.toNat ∧ r.chCount.toNat + r.objCount.toNat ≤ 140 := by
  obtain ⟨-, hch, hobj, -⟩ | ⟨-, hch, hlow, hhigh, -⟩ | ⟨-, hch, hlow, hhigh, -⟩ | ⟨-, hch, hobj, -⟩ := h
  · have hzero : r.objCount.toNat = 0 := congrArg BitVec.toNat hobj
    simp only [List.mem_cons, List.not_mem_nil, or_false] at hch
    omega
  · have hzero : r.chCount.toNat = 0 := congrArg BitVec.toNat hch
    omega
  · simp only [List.mem_cons, List.not_mem_nil, or_false] at hch
    omega
  · have hzero : r.objCount.toNat = 0 := congrArg BitVec.toNat hobj
    simp only [List.mem_cons, List.not_mem_nil, or_false] at hch
    omega

/-- No layout, no tag; and the profile is one of the three. -/
theorem State.BranchDone.layout {s : State} (h : s.BranchDone) :
    (s.w.layV = false → s.w.lay = 0) ∧ s.f.prof.toNat ≤ 2 := by
  obtain ⟨hp, -, -, -, -, -, hlay⟩ | ⟨hp, -, -, -, -, -, hlay, -⟩ | ⟨hp, -, -, -, -, hlay, -⟩ |
    ⟨hp, -, -, -, -, -, -, -, hlay⟩ := h
  · exact ⟨hlay, by rw [hp]; decide⟩
  · exact ⟨fun _ => hlay, by rw [hp]; decide⟩
  · exact ⟨hlay, by rw [hp]; decide⟩
  · exact ⟨fun _ => hlay, by rw [hp]; decide⟩

/-- The commit loads legal values (spec/10_state.md R30, R36, R37). -/
theorem commitStep_legal {s : State} (hrate : s.RateDone) (hbranch : s.BranchDone) (hres : s.ResolutionDone)
    (hbr : s.BitrateDone) : (commitStep s).r.Legal := by
  obtain ⟨hcodec, hsr, hsrate⟩ := hrate
  obtain ⟨hlay, hprof⟩ := hbranch.layout
  have hcontent := commitStep_contentLegal hbranch hbr
  obtain ⟨hlow, hhigh, -⟩ := hbr
  have hrange : 1 ≤ s.w.ch.toNat + s.w.obj.toNat ∧ s.w.ch.toNat + s.w.obj.toNat ≤ 140 := hcontent.total_range
  have htotal : (s.w.ch + s.w.obj).toNat = s.w.ch.toNat + s.w.obj.toNat := BitVec.toNat_add_of_lt (by omega)
  exact
    { codec := hcodec, profile := hprof, srIndex := hsr, sampleRate := hsrate, resolution := hres, content := hcontent
      total := htotal, totalRange := htotal.symm ▸ hrange, layoutTag := hlay, bitrate := ⟨hlow, hhigh⟩ }

/-- No step's checks pass into `S_IDLE` or `S_DONE`. -/
theorem Fsm.Passes.namesStep {x y : Fsm} {v : BitVec x.width} {s : State} {w : WorkRegs} (h : x.Passes v s y w) :
    y ≠ .sIdle ∧ y ≠ .sDone := by
  cases x <;> grind [Fsm.Passes, branchOf]

/-- A field step keeps the invariant, whatever it does. -/
theorem State.Inv.does {s t : State} (h : s.Inv) (hb : s.busy = true) {p0 : StreamPos} (hp0 : p0.toNat ≤ 72)
    {v : BitVec s.fsm.width} (hdoes : s.fsm.Does p0 v (s.advance s.fsm.width) t) : t.Inv := by
  have hrun := h.running hb
  have hcur := h.stage.cur_le
  have hmoved : (s.advance s.fsm.width).cur.toNat ≤ 69 := by
    rw [State.advance_width_cur (by omega)]
    exact hcur
  cases hdoes with
  | error e pos hpos => exact (hrun.update _ _ s.w).inv_raise e (hpos hp0) hmoved
  | pass y w hpass => exact (hrun.update _ _ w).inv_goTo hpass.namesStep (h.stage.pass rfl hpass)
  | commit hx =>
    have hst := h.stage
    simp only [State.Stage, hx] at hst
    obtain ⟨-, -, hrate, hbranch, hres, hbr⟩ := hst
    exact (hrun.update _ s.f s.w).inv_commit hmoved (commitStep_legal hrate hbranch hres hbr)

theorem State.Inv.operandStep {s t : State} (h : s.Inv) (hstep : s.OperandStep t) : t.Inv := by
  obtain ⟨hb, p0, v, hp0, hdoes⟩ := hstep
  exact h.does hb hp0 hdoes

theorem State.Inv.fieldStep {s t : State} (h : s.Inv) (hb : s.busy = true) (hstep : fieldStep s = .next t) :
    t.Inv := by
  have hcur := h.stage.cur_le
  obtain ⟨-, rfl⟩ | ⟨-, hdoes⟩ := fieldStep_performs hstep
  · exact (h.running hb).inv_raise .bufferExhausted (by omega) (by omega)
  · exact h.does hb (by omega) hdoes

/-- A transaction begun meets the invariant. -/
theorem State.inv_beginTransaction {s : State} (h : s.initialised = true) : s.beginTransaction.Inv :=
  State.Running.inv_goTo (s := s.beginTransaction) (x := .sLen) ⟨h, rfl, rfl, rfl, rfl, rfl, rfl⟩ ⟨nofun, nofun⟩
    (And.intro rfl rfl)

theorem State.inv_accept {s : State} (p : Ports) (h : s.initialised = true) : (s.accept p).Inv :=
  State.inv_beginTransaction (s := { s with ib := p.inData.bytes, len := p.inLen }) h

/-- The invariant says nothing about the host actions to come. -/
theorem State.Inv.withHost {s : State} (h : s.Inv) (acts : List HostAction) : (s.withHost acts).Inv :=
  { h with }

theorem State.inv_reset : State.reset.Inv where
  initialised := rfl
  busyIff := by decide
  doneIff := by decide
  errDone := nofun
  noResult _ := rfl
  result := nofun
  noError _ := ⟨rfl, rfl⟩
  errorCode := nofun
  stage := rfl

theorem State.Inv.reaches {s t : State} (h : s.Inv) (hreach : Relation.ReflTransGen State.OperandStep s t) :
    t.Inv := by
  induction hreach with
  | refl => exact h
  | tail _ hstep ih => exact ih.operandStep hstep

/-- The meaning of every form keeps the invariant: it is a run of field steps. -/
theorem exec_inv {i : Instr} {s t : State} (hinit : s.initialised = true) (h : exec i s = .next t) : t.Inv :=
  (State.inv_beginTransaction hinit).reaches (exec_reaches h)

/-- Field steps run to the end of a transaction keep the invariant. -/
theorem runSteps_inv (n : Nat) : ∀ {s t : State}, s.Inv → runSteps n s = .next t → t.Inv := by
  induction n with
  | zero =>
    intro s t hs h
    exact Host.Outcome.next.inj h ▸ hs
  | succ n ih =>
    intro s t hs h
    cases hb : s.busy with
    | false =>
      rw [runSteps_over _ hb] at h
      exact Host.Outcome.next.inj h ▸ hs
    | true =>
      obtain ⟨u, -, hu⟩ := fieldStep_leadsTo hb fun hb => hs.busyIff.mp hb
      have hstep : fieldStep s = .next (u.withOwn s.host s.initialised) := hu s.host s.initialised
      rw [runSteps_busy n hb hstep] at h
      exact ih (hs.fieldStep hb hstep) h

theorem clockEdge_inv {p : Ports} {stall : Bool} {s t : State} (hs : s.Inv) (h : clockEdge p stall s = .next t) :
    t.Inv := by
  obtain ⟨-, rfl⟩ | ⟨-, -, -, rfl⟩ | ⟨-, hb, -, hstep⟩ | ⟨-, -, -, hinit, rfl⟩ | ⟨-, -, -, rfl⟩ := clockEdge_next h
  · exact State.inv_reset.withHost s.host
  · exact hs
  · exact hs.fieldStep hb hstep
  · exact State.inv_accept p hinit
  · exact hs

theorem waitDone_inv {s t : State} (hs : s.Inv) (h : waitDone s = .next t) : t.Inv := by
  unfold waitDone fetchAndExec at h
  split_ifs at h
  · split at h
    · exact exec_inv hs.initialised h
    · exact runSteps_inv 17 hs h
  · exact runSteps_inv 17 hs h
  · exact Host.Outcome.next.inj h ▸ hs

/-- Settles O45: a step is a clock edge, a transaction run to its end, or a WAIT that waits on. -/
theorem everyStepKeepsTheInvariant : Obligations.EveryStepKeepsTheInvariant := by
  intro s t hs h
  obtain ⟨-, hstep⟩ | ⟨p, stall, rest, -, hstep⟩ | ⟨p, rest, -, hstep⟩ | ⟨rest, -, hstep⟩ := step_of_host s
  · exact waitDone_inv hs (hstep.symm.trans h)
  · exact clockEdge_inv (hs.withHost rest) (hstep.symm.trans h)
  · rw [hstep] at h
    split at h
    · exact waitDone_inv hs h
    · exact clockEdge_inv (hs.withHost rest) h
  · rw [hstep] at h
    split at h
    · exact waitDone_inv (hs.withHost rest) h
    · exact Host.Outcome.next.inj h ▸ hs

/-- Settles O44: the flags, the registers and the results of the reset state are all 0. -/
theorem resetMeetsTheInvariant : Obligations.ResetMeetsTheInvariant :=
  State.inv_reset

/-- Settles O47: a form ends in a state of the invariant. Whether a reset was seen before, which the invariant asks for
and a form does not, is bookkeeping the form ignores. -/
theorem successfulResultsAreLegal : Obligations.SuccessfulResultsAreLegal := by
  intro i s t h hvalid
  obtain ⟨g, hg, hexec⟩ := exec_ignoresOwn i
  obtain rfl : g s = t := Host.Outcome.next.inj ((hexec s).symm.trans h)
  have hbooted : exec i (s.withOwn s.host true) = .next ((g s).withOwn s.host true) := by rw [hexec, hg]
  have hinv : ((g s).withOwn s.host true).Inv := exec_inv rfl hbooted
  obtain ⟨hdone, herr⟩ : (g s).done = true ∧ (g s).err = false := by simpa [State.resultValid] using hvalid
  exact hinv.result hdone herr

end Sys2Proof.Machine
end

section
/-! SUPPORT. The host's reads by register number (spec/10_state.md R30, R33, R35). -/

namespace Sys2Proof.Machine

theorem State.status_toNat (s : State) :
    s.status.toNat = s.busy.toNat + 2 * s.done.toNat + 4 * s.err.toNat + 8 * (s.done && !s.err).toNat := by
  unfold State.status State.resultValid
  cases s.busy <;> cases s.done <;> cases s.err <;> rfl

/-- Settles O53: a register read in 32 bits keeps its value; the other numbers are not among the rows of `hostRead`. -/
theorem hostReadsTheStatusRegisters : Obligations.HostReadsTheStatusRegisters := by
  intro s n
  refine ⟨⟨_, rfl, ?_⟩, ⟨_, rfl, ?_⟩, ⟨_, rfl, ?_⟩, ?_⟩
  · rw [BitVec.toNat_setWidth_of_le (by decide), State.status_toNat]
  · exact BitVec.toNat_setWidth_of_le (by decide)
  · exact BitVec.toNat_setWidth_of_le (by decide)
  · intro hn
    obtain rfl | ⟨hlow, hhigh⟩ | hpast := hn
    · rfl
    · interval_cases n <;> rfl
    · obtain ⟨k, rfl⟩ := Nat.exists_eq_add_of_le' hpast
      rfl

/-- Settles O54: the rows of `hostRead`, each read in 32 bits without loss. -/
theorem hostReadsTheResultRegisters : Obligations.HostReadsTheResultRegisters := by
  intro s
  simp [State.hostRead, BitVec.toNat_setWidth_of_le, -BitVec.toNat_setWidth]

end Sys2Proof.Machine
end

section
/-! SUPPORT. The bits of the captured bytes: stream bits, and the reads they make up (spec/20_memory.md R62, R63). -/

namespace Sys2Proof.Machine

/-- Byte `k` of a header word is `HW[71-8k : 64-8k]` (spec/30_encoding.md R114). -/
theorem getElem?_bytes (h : HeaderWord) {k : Nat} (hk : k < 9) : h.bytes[k]? = some (h.slice (64 - 8 * k) 8) := by
  interval_cases k <;> rfl

theorem streamBit_bytes (h : HeaderWord) {p : Nat} (hp : p < 72) : streamBit h.bytes p = h.getLsbD (71 - p) := by
  have hk : p / 8 < 9 := by omega
  have hbit : 7 - p % 8 < 8 := by omega
  have hpos : 64 - 8 * (p / 8) + (7 - p % 8) = 71 - p := by omega
  simp only [streamBit, getElem?_bytes h hk, HeaderWord.getLsbD_slice, decide_eq_true hbit, Bool.true_and, hpos]

/-- Settles O6: the byte and the bit in it that R62 names are bit `71 - p` of the word. -/
theorem capturedWordIsReadFromItsTop : Obligations.CapturedWordIsReadFromItsTop :=
  fun h _ hp => streamBit_bytes h hp

/-- Settles O5: any nine bytes are the bytes of a word, of which `MemRead` is a slice. -/
theorem memReadTakesTheStreamBits : Obligations.MemReadTakesTheStreamBits := by
  intro ib p n i hp hi
  have hlow : n - 1 - i < n := by omega
  have hpos : 72 - p - n + (n - 1 - i) = 71 - (p + i) := by omega
  rw [← HeaderWord.bytes_headerWordOf ib, memRead_bytes, HeaderWord.getLsbD_slice, decide_eq_true hlow,
    Bool.true_and, hpos, streamBit_bytes _ (by omega)]

end Sys2Proof.Machine
end

section
/-! SUPPORT. The fields of an encoded header, each as the read that takes it from the captured bytes
(spec/30_encoding.md R101 to R105). -/

namespace Sys2Proof

open Machine

theorem memRead_prefix {nn prof : BitVec 3} {sr : BitVec 4} {crc1 : Byte} {rest : BitVec 37} {h : HeaderWord}
    (e : h = encodePrefix nn prof sr crc1 ++ rest) :
    memRead h.bytes 0 12 = 0xFFF#12 ∧ memRead h.bytes 12 4 = 2#4 ∧ memRead h.bytes 16 1 = 0#1 ∧
      memRead h.bytes 17 3 = nn ∧ memRead h.bytes 20 3 = prof ∧ memRead h.bytes 23 4 = sr := by
  obtain ⟨hsync, hcodec, hanc, hnn, hprof, hsr, -, -⟩ := slices_of_prefix nn prof sr crc1 rest h e
  simp only [memRead_bytes]
  exact ⟨hsync, hcodec, hanc, hnn, hprof, hsr⟩

/-- A read past the common fields is a slice of the form's own ones. -/
theorem memRead_rest (i : Instr) (p n : Nat) (hp : 35 ≤ p ∧ p + n ≤ 72) :
    memRead (encode i).bytes p n = (encodeRest i).extractLsb' (72 - p - n) n := by
  rw [memRead_bytes]
  exact slice_of_rest (encodeFront i) (encodeRest i) _ _ (encode i) rfl (by omega)

/-- The form's own fields that a step checks or stores stand at the offsets of its step sequence. -/
def Instr.FieldsIn (ib : Vector Byte 9) : Instr → Prop
  | .hdrCh _ _ _ cfg res br _ _ => memRead ib 35 7 = cfg ∧ memRead ib 42 2 = res ∧ memRead ib 44 4 = br
  | .hdrObj _ _ _ obj obr res _ _ =>
    memRead ib 35 2 = 0#2 ∧ memRead ib 37 7 = obj ∧ memRead ib 44 4 = obr ∧ memRead ib 48 2 = res
  | .hdrChobj _ _ _ cfg bbr obj obr res _ _ =>
    memRead ib 35 2 = 1#2 ∧ memRead ib 37 7 = cfg ∧ memRead ib 44 4 = bbr ∧ memRead ib 48 7 = obj ∧
      memRead ib 55 4 = obr ∧ memRead ib 59 2 = res
  | .hdrHoa _ _ _ ord res br _ _ => memRead ib 35 4 = ord ∧ memRead ib 39 2 = res ∧ memRead ib 41 4 = br
  | .hdrRsvSbt _ _ _ sbt _ => memRead ib 35 2 = sbt
  | .hdrRsvProf3 _ _ _ _ => True
  | .hdrRsvProf4to7 _ _ _ _ _ => True

theorem fieldsIn_encode (i : Instr) : i.FieldsIn (encode i).bytes := by
  cases i
  case hdrRsvProf3 | hdrRsvProf4to7 => exact trivial
  all_goals
    simp only [Instr.FieldsIn]
    repeat' apply And.intro
  all_goals
    rw [memRead_rest _ _ _ (by decide)]
    simp only [encodeRest]
    repeat (first | rw [extract_of_high _ _ (by decide)] | rw [extract_of_low _ _ (by decide)])
    exact BitVec.extractLsb'_eq_self

end Sys2Proof
end

section
/-! SUPPORT. No step looks at the captured bytes but through the read at its cursor (spec/40_decode_and_prefix.md
R143). -/

namespace Sys2Proof.Machine

/-- The state with other captured bytes. -/
def State.withInput (ib : Vector Byte 9) (s : State) : State :=
  { s with ib := ib }

@[simp] theorem State.withInput_ib (ib : Vector Byte 9) (s : State) : (s.withInput ib).ib = ib := rfl
@[simp] theorem State.withInput_len (ib : Vector Byte 9) (s : State) : (s.withInput ib).len = s.len := rfl
@[simp] theorem State.withInput_cur (ib : Vector Byte 9) (s : State) : (s.withInput ib).cur = s.cur := rfl
@[simp] theorem State.withInput_f (ib : Vector Byte 9) (s : State) : (s.withInput ib).f = s.f := rfl
@[simp] theorem State.withInput_w (ib : Vector Byte 9) (s : State) : (s.withInput ib).w = s.w := rfl

/-- The ports do not show the captured bytes. -/
@[simp] theorem State.withInput_outputs (ib : Vector Byte 9) (s : State) : (s.withInput ib).outputs = s.outputs := rfl

/-- An update that neither reads nor writes the captured bytes. -/
def IgnoresInput (g : State → State) : Prop :=
  ∀ ib s, g (s.withInput ib) = (g s).withInput ib

theorem lenStep_ignoresInput : IgnoresInput lenStep := by
  intro ib s
  by_cases h : min s.len.toNat 9 < 9
  · rw [lenStep_short h, lenStep_short (s := s.withInput ib) h]
    rfl
  · rw [lenStep_full h, lenStep_full (s := s.withInput ib) h]
    rfl

theorem dispatchStep_ignoresInput : IgnoresInput dispatchStep := by
  intro ib s
  simp only [dispatchStep, State.withInput_f]
  split <;> rfl

theorem commitStep_ignoresInput : IgnoresInput commitStep :=
  fun _ _ => rfl

/-- The field step of `x` begun at the cursor `c` is the read of its field followed by `body`, which does what the step
may do and sees the captured bytes in the value read alone. -/
structure Fsm.Reads (x : Fsm) (c : StreamPos) (body : BitVec x.width → State → State) : Prop where
  step : ∀ s, s.fsm = x → s.cur = c → fieldStep s = readThen x.width s body
  does : ∀ v s, x.Does c v s (body v s)
  ignoresInput : ∀ v, IgnoresInput (body v)

section
variable (c : StreamPos)

theorem sync_reads : Fsm.sSync.Reads c syncBody where
  step _ h _ := fieldStep_sSync h
  does := syncBody_does
  ignoresInput _ _ _ := by
    unfold syncBody
    split <;> rfl

theorem codec_reads : Fsm.sCodec.Reads c codecBody where
  step _ h _ := fieldStep_sCodec h
  does := codecBody_does
  ignoresInput _ _ _ := by
    unfold codecBody
    split <;> rfl

theorem anc_reads : Fsm.sAnc.Reads c ancBody where
  step _ h _ := fieldStep_sAnc h
  does := ancBody_does
  ignoresInput _ _ _ := by
    unfold ancBody
    split <;> rfl

theorem nn_reads : Fsm.sNn.Reads c nnBody where
  step _ h _ := fieldStep_sNn h
  does := nnBody_does
  ignoresInput _ _ _ := rfl

theorem prof_reads : Fsm.sProf.Reads c profBody where
  step _ h _ := fieldStep_sProf h
  does := profBody_does
  ignoresInput _ _ _ := rfl

theorem sr_reads : Fsm.sSr.Reads c srBody where
  step _ h _ := fieldStep_sSr h
  does := srBody_does
  ignoresInput _ _ _ := by
    unfold srBody
    split <;> rfl

theorem crc1_reads : Fsm.sCrc1.Reads c fun _ => crc1Body where
  step _ h _ := fieldStep_sCrc1 h
  does := crc1Body_does
  ignoresInput _ _ _ := rfl

theorem aCfg_reads : Fsm.sACfg.Reads c aCfgBody where
  step _ h _ := fieldStep_sACfg h
  does := aCfgBody_does
  ignoresInput _ _ _ := by
    unfold aCfgBody
    split
    · rfl
    · split <;> rfl

theorem sbt_reads : Fsm.sBSbt.Reads c sbtBody where
  step _ h _ := fieldStep_sBSbt h
  does := sbtBody_does
  ignoresInput _ _ _ := by
    unfold sbtBody
    split <;> rfl

theorem b0Obj_reads : Fsm.sB0Obj.Reads c b0ObjBody where
  step _ h _ := fieldStep_sB0Obj h
  does := b0ObjBody_does
  ignoresInput _ _ _ := rfl

theorem b0Obr_reads : Fsm.sB0Obr.Reads c b0ObrBody where
  step _ h _ := fieldStep_sB0Obr h
  does := b0ObrBody_does
  ignoresInput _ _ _ := by
    unfold b0ObrBody
    split <;> rfl

theorem b1Cfg_reads : Fsm.sB1Cfg.Reads c b1CfgBody where
  step _ h _ := fieldStep_sB1Cfg h
  does := b1CfgBody_does
  ignoresInput _ _ _ := by
    unfold b1CfgBody
    split <;> rfl

theorem b1Bbr_reads : Fsm.sB1Bbr.Reads c b1BbrBody where
  step _ h _ := fieldStep_sB1Bbr h
  does := b1BbrBody_does
  ignoresInput _ _ _ := by
    simp only [b1BbrBody, State.withInput_f]
    split <;> rfl

theorem b1Obj_reads : Fsm.sB1Obj.Reads c b1ObjBody where
  step _ h _ := fieldStep_sB1Obj h
  does := b1ObjBody_does
  ignoresInput _ _ _ := rfl

theorem b1Obr_reads : Fsm.sB1Obr.Reads c b1ObrBody where
  step _ h _ := fieldStep_sB1Obr h
  does := b1ObrBody_does
  ignoresInput _ _ _ := by
    unfold b1ObrBody
    split <;> rfl

theorem ord_reads : Fsm.sCOrd.Reads c ordBody where
  step _ h _ := fieldStep_sCOrd h
  does := ordBody_does
  ignoresInput _ _ _ := by
    dsimp only [ordBody]
    split <;> rfl

theorem res_reads : Fsm.sRes.Reads c (resBody c) where
  step _ h hc := hc ▸ fieldStep_sRes h
  does := resBody_does
  ignoresInput v _ _ := by
    cases h : resolutionClass v with
    | none => rw [resBody_invalid h, resBody_invalid h]; rfl
    | some _ => rw [resBody_valid h, resBody_valid h]; rfl

theorem br_reads : Fsm.sBr.Reads c (brBody c) where
  step _ h hc := hc ▸ fieldStep_sBr h
  does := brBody_does
  ignoresInput _ _ _ := by
    simp only [brBody, State.withInput_w]
    split <;> rfl

theorem crc2_reads : Fsm.sCrc2.Reads c fun _ => crc2Body where
  step _ h _ := fieldStep_sCrc2 h
  does := crc2Body_does
  ignoresInput _ _ _ := rfl

end

end Sys2Proof.Machine
end

section
/-! SUPPORT. Field steps on the captured bytes do what the meaning of the captured header does on its operands
(spec/40_decode_and_prefix.md R157). -/

namespace Sys2Proof.Machine

theorem State.OperandStep.namesStep {s t : State} (h : s.OperandStep t) : t.NamesStep := by
  obtain ⟨-, _, _, -, hdoes⟩ := h
  cases hdoes with
  | error => exact nofun
  | pass y w hpass => exact fun _ => hpass.namesStep
  | commit => exact nofun

/-- On the course of a form, `k` field steps on the bytes `ib` lead to `s` as well, and there nine bytes are available
and the cursor is at `c`, if the transaction is not over. `s` is what the form's operands lead to, so its own captured
bytes may be any. -/
structure FieldRun (ib : Vector Byte 9) (s0 : State) (k : Nat) (x : Fsm) (prof : BitVec 3) (c : Nat) (s : State) : Prop
    extends OnCourse s0 x prof s where
  ran : ∀ n, runSteps (k + n) (s0.withInput ib) = runSteps n (s.withInput ib)
  cursor : s.busy = true → s.cur = BitVec.ofNat 7 c
  full : s.busy = true → 9 ≤ s.len.toNat

section
variable {ib : Vector Byte 9} {s0 s : State} {k c c' : Nat} {x y : Fsm} {prof prof' : BitVec 3}

/-- A transaction that is over stays as it is, whatever step would be next. -/
theorem FieldRun.over (h : FieldRun ib s0 k x prof c s) (hb : s.busy = false) :
    FieldRun ib s0 (k + 1) y prof' c' s where
  toOnCourse := h.toOnCourse.over hb
  ran n := by
    rw [Nat.add_right_comm, Nat.add_assoc, h.ran, runSteps_over (s := s.withInput ib) _ hb,
      runSteps_over (s := s.withInput ib) _ hb]
  cursor hbusy := absurd (hb.symm.trans hbusy) nofun
  full hbusy := absurd (hb.symm.trans hbusy) nofun

/-- The field step of a busy block goes on with the run. -/
theorem FieldRun.step (h : FieldRun ib s0 k x prof c s) (hb : s.busy = true) {t : State}
    (hcourse : OnCourse s0 y prof' t) (hstep : fieldStep (s.withInput ib) = .next (t.withInput ib))
    (hcur : t.cur = BitVec.ofNat 7 c') (hlen : t.len = s.len) : FieldRun ib s0 (k + 1) y prof' c' t where
  toOnCourse := hcourse
  ran n := by
    rw [Nat.add_right_comm, Nat.add_assoc, h.ran]
    exact runSteps_busy n hb hstep
  cursor _ := hcur
  full _ := hlen ▸ h.full hb

/-- With nine bytes available a step whose field lies in them runs its body on the field at the cursor. -/
theorem Fsm.Reads.fieldStep_withInput {body : BitVec x.width → State → State}
    (hreads : x.Reads (BitVec.ofNat 7 c) body) (hx : s.fsm = x) (hcur : s.cur = BitVec.ofNat 7 c)
    (hlen : 9 ≤ s.len.toNat) (hwidth : 0 < x.width) (hfit : c + x.width ≤ 72) :
    fieldStep (s.withInput ib) = .next ((body (memRead ib c x.width) (s.advance x.width)).withInput ib) := by
  have hmax := x.width_le
  have hc : (s.withInput ib).cur.toNat = c := by
    rw [State.withInput_cur, hcur, BitVec.toNat_ofNat, Nat.mod_eq_of_lt (by omega)]
  have hroom : (s.withInput ib).cur.toNat + x.width ≤ (s.withInput ib).availableBits := by
    rw [availableBits_full (s := s.withInput ib) hlen, hc]
    exact hfit
  rw [hreads.step (s.withInput ib) hx hcur, readThen_fits ⟨hwidth, by omega⟩ hroom, hc, State.withInput_ib,
    ← hreads.ignoresInput]
  rfl

/-- A field step of a form's operands, when the operand is the field read at the cursor, or the step does not look. -/
theorem FieldRun.field (h : FieldRun ib s0 k x prof c s) (y : Fsm) {v : BitVec x.width}
    {body : BitVec x.width → State → State} (hreads : x.Reads (BitVec.ofNat 7 c) body)
    (hnext : ∀ u z w, u.f.prof = prof → x.Passes v u z w → z = y ∧ (x.put v u.f).prof = prof')
    (hval : body (memRead ib c x.width) = body v) (hwidth : 0 < x.width := by decide)
    (hfit : c + x.width ≤ 72 := by decide) :
    FieldRun ib s0 (k + 1) y prof' (c + x.width) (takeField x.width v body s) := by
  cases hb : s.busy with
  | false => rw [takeField_over hb]; exact h.over hb
  | true =>
    have hp0 : (BitVec.ofNat 7 c).toNat ≤ 72 := by
      rw [BitVec.toNat_ofNat]
      omega
    have hcourse := h.toOnCourse.field y (BitVec.ofNat 7 c) v hreads.does hnext hp0
    have hstep := hreads.fieldStep_withInput (ib := ib) (h.next hb).1 (h.cursor hb) (h.full hb) hwidth hfit
    have hdoes := hreads.does v (s.advance x.width)
    rw [hval] at hstep
    rw [takeField_busy hb] at hcourse ⊢
    exact h.step hb hcourse hstep (by rw [hdoes.cur, State.advance_cur, h.cursor hb, BitVec.ofNat_add])
      hdoes.sameInput.len

/-- A step of a form that reads no bits. -/
theorem FieldRun.noField (h : FieldRun ib s0 k x prof c s) (y : Fsm) {body : State → State} (hw : x.width = 0)
    (hstep : ∀ u, u.fsm = x → fieldStep u = .next (body u)) (hdoes : ∀ v u, x.Does 0 v u (body u))
    (hbody : IgnoresInput body)
    (hnext : ∀ v u z w, u.f.prof = prof → x.Passes v u z w → z = y ∧ (x.put v u.f).prof = prof') :
    FieldRun ib s0 (k + 1) y prof' c (takeStep body s) := by
  cases hb : s.busy with
  | false => rw [takeStep_over hb]; exact h.over hb
  | true =>
    have hcourse := h.toOnCourse.noField y hw hdoes hnext
    rw [takeStep_busy hb] at hcourse ⊢
    exact h.step hb hcourse (by rw [hstep (s.withInput ib) (h.next hb).1, hbody])
      ((hdoes 0 s).cur.trans (h.cursor hb)) (hdoes 0 s).sameInput.len

/-- `S_RES` of a form. -/
theorem FieldRun.resolution (h : FieldRun ib s0 k .sRes prof c s) {res : BitVec 2} (hval : memRead ib c 2 = res)
    (hfit : c + 2 ≤ 72 := by decide) :
    FieldRun ib s0 (k + 1) (if prof = 1#3 then .sCrc2 else .sBr) prof (c + 2)
      (takeField 2 res (resBody (BitVec.ofNat 7 c)) s) :=
  h.field _ (res_reads _) (fun _ _ _ hp ⟨_, _, _, hz, _⟩ => ⟨hp ▸ hz, hp⟩) (congrArg _ hval) (by decide) hfit

/-- `S_BR` of a form. -/
theorem FieldRun.bitrate (h : FieldRun ib s0 k .sBr prof c s) {br : BitVec 4} (hval : memRead ib c 4 = br)
    (hfit : c + 4 ≤ 72 := by decide) :
    FieldRun ib s0 (k + 1) .sCrc2 prof (c + 4) (takeField 4 br (brBody (BitVec.ofNat 7 c)) s) :=
  h.field _ (br_reads _) (fun _ _ _ hp ⟨_, _, hz, _⟩ => ⟨hz, hp⟩) (congrArg _ hval) (by decide) hfit

/-- The last two steps of a form: the CRC byte is skipped, whatever it is. -/
theorem FieldRun.finish (h : FieldRun ib s0 k .sCrc2 prof c s) (crc2 : Byte) (hfit : c + 8 ≤ 72 := by decide) :
    FieldRun ib s0 (k + 2) .sDone prof (c + 8) (runEnd crc2 s) :=
  h.field .sCommit (crc2_reads _) (fun _ _ _ hp ⟨hz, _⟩ => ⟨hz, hp⟩) rfl (by decide) hfit
    |>.noField _ rfl (fun _ => fieldStep_sCommit) commitStep_does commitStep_ignoresInput
      (fun _ _ _ _ _ hpass => hpass.elim)

/-- `S_B_SBT` of a form, which goes to `y` if it passes. -/
theorem FieldRun.soundBed (h : FieldRun ib s0 k .sBSbt prof c s) {sbt : BitVec 2} (hval : memRead ib c 2 = sbt)
    (hy : sbt.toNat ≤ 1 → (if sbt.toNat = 0 then .sB0Obj else .sB1Cfg) = y) (hfit : c + 2 ≤ 72 := by decide) :
    FieldRun ib s0 (k + 1) y prof (c + 2) (takeField 2 sbt sbtBody s) :=
  h.field _ (sbt_reads _) (fun _ _ _ hp ⟨hle, hz, _⟩ => ⟨hz.trans (hy hle), hp⟩) (congrArg _ hval) (by decide) hfit

/-- A run past the last step of a form is the whole transaction. -/
theorem FieldRun.finishes (h : FieldRun ib s0 k .sDone prof c s) (h0 : s0.NamesStep) (hk : k ≤ 17) :
    finishTransaction (s0.withInput ib) = .next (s.withInput ib) := by
  have hnames : s.NamesStep := by
    obtain rfl | ⟨_, -, hlast⟩ := Relation.ReflTransGen.cases_tail h.reached
    · exact h0
    · exact hlast.namesStep
  have hover : s.busy = false := by
    cases hb : s.busy with
    | false => rfl
    | true => exact absurd (h.next hb).1 (hnames hb).2
  obtain ⟨n, hn⟩ := Nat.exists_eq_add_of_le hk
  rw [finishTransaction, hn, h.ran, runSteps_over (s := s.withInput ib) n hover]

end

/-- A transaction begins with `S_LEN`, which passes when nine bytes are captured. -/
theorem lenStep_fieldRun (ib : Vector Byte 9) (s : State) :
    FieldRun ib s.beginTransaction 1 .sSync 0 0 (takeStep lenStep s.beginTransaction) where
  toOnCourse := (onCourse_begin s).noField .sSync rfl lenStep_does (fun _ _ _ _ hp ⟨_, hz, _⟩ => ⟨hz, hp⟩)
  ran n := by
    rw [takeStep_busy rfl, ← lenStep_ignoresInput, Nat.add_comm]
    exact runSteps_busy n rfl (fieldStep_sLen rfl)
  cursor _ := by
    rw [takeStep_busy rfl, (lenStep_does (p0 := 0) 0 s.beginTransaction).cur]
    rfl
  full hb := by
    rw [takeStep_busy rfl] at hb ⊢
    by_cases hlen : min s.beginTransaction.len.toNat 9 < 9
    · rw [lenStep_short hlen] at hb
      exact nomatch hb
    · rw [lenStep_full hlen, State.goTo_len]
      omega

/-- The common fields of a header lead to the branch of its coding profile, which is `y` if the profile has one. -/
theorem runPrefix_fieldRun (prof : BitVec 3) (y : Fsm) (hy : prof.toNat ≤ 2 → branchOf prof = y) {h : HeaderWord}
    {nn : BitVec 3} {sr : BitVec 4} {crc1 : Byte} {rest : BitVec 37} (e : h = encodePrefix nn prof sr crc1 ++ rest)
    (s : State) :
    FieldRun h.bytes s.beginTransaction 9 y prof 35 (runPrefix nn prof sr crc1 s) := by
  obtain ⟨hsync, hcodec, hanc, hnn, hprof, hsr⟩ := memRead_prefix e
  exact lenStep_fieldRun h.bytes s
    |>.field .sCodec (sync_reads _) (fun _ _ _ hp ⟨hz, _⟩ => ⟨hz, hp⟩) (congrArg _ hsync)
    |>.field .sAnc (codec_reads _) (fun _ _ _ hp ⟨_, hz, _⟩ => ⟨hz, hp⟩) (congrArg _ hcodec)
    |>.field .sNn (anc_reads _) (fun _ _ _ hp ⟨hz, _⟩ => ⟨hz, hp⟩) (congrArg _ hanc)
    |>.field .sProf (nn_reads _) (fun _ _ _ hp ⟨hz, _⟩ => ⟨hz, hp⟩) (congrArg _ hnn)
    |>.field .sSr (prof_reads _) (fun _ _ _ _ ⟨hz, _⟩ => ⟨hz, rfl⟩) (congrArg _ hprof)
    |>.field .sCrc1 (sr_reads _) (fun _ _ _ hp ⟨_, _, hz, _⟩ => ⟨hz, hp⟩) (congrArg _ hsr)
    |>.field .sDispatch (crc1_reads _) (fun _ _ _ hp ⟨hz, _⟩ => ⟨hz, hp⟩) rfl
    |>.noField y rfl (fun _ => fieldStep_sDispatch) dispatchStep_does dispatchStep_ignoresInput
      (fun _ _ _ _ hp ⟨hle, hz, _⟩ => by subst hp; exact ⟨hz.trans (hy hle), rfl⟩)

/-- The field steps on a well-formed header's encoding end in what the meaning of the header gives, but for the captured
bytes, which the meaning only carries along: `s` may hold any. -/
theorem finishTransaction_encode {i : Instr} (hwf : i.wf = true) (s : State) :
    ∃ t, exec i s = .next t ∧
      finishTransaction (s.beginTransaction.withInput (encode i).bytes) = .next (t.withInput (encode i).bytes) := by
  have hbegin : s.beginTransaction.NamesStep := fun _ => ⟨nofun, nofun⟩
  have hfields := fieldsIn_encode i
  cases i with
  | hdrCh nn sr crc1 cfg res br crc2 _ =>
    obtain ⟨hcfg, hres, hbr⟩ := hfields
    exact ⟨_, rfl, runPrefix_fieldRun 0#3 .sACfg (fun _ => rfl) rfl s
      |>.field .sRes (aCfg_reads _) (fun _ _ _ hp ⟨_, _, _, _, hz, _⟩ => ⟨hz, hp⟩) (congrArg _ hcfg)
      |>.resolution hres
      |>.bitrate hbr
      |>.finish crc2
      |>.finishes hbegin (by decide)⟩
  | hdrObj nn sr crc1 obj obr res crc2 _ =>
    obtain ⟨hsbt, hobj, hobr, hres⟩ := hfields
    exact ⟨_, rfl, runPrefix_fieldRun 1#3 .sBSbt (fun _ => rfl) rfl s
      |>.soundBed hsbt (fun _ => rfl)
      |>.field .sB0Obr (b0Obj_reads _) (fun _ _ _ hp ⟨hz, _⟩ => ⟨hz, hp⟩) (congrArg _ hobj)
      |>.field .sRes (b0Obr_reads _) (fun _ _ _ hp ⟨_, _, hz, _⟩ => ⟨hz, hp⟩) (congrArg _ hobr)
      |>.resolution hres
      |>.finish crc2
      |>.finishes hbegin (by decide)⟩
  | hdrChobj nn sr crc1 cfg bbr obj obr res crc2 _ =>
    obtain ⟨hsbt, hcfg, hbbr, hobj, hobr, hres⟩ := hfields
    exact ⟨_, rfl, runPrefix_fieldRun 1#3 .sBSbt (fun _ => rfl) rfl s
      |>.soundBed hsbt (fun _ => rfl)
      |>.field .sB1Bbr (b1Cfg_reads _) (fun _ _ _ hp ⟨_, hz, _⟩ => ⟨hz, hp⟩) (congrArg _ hcfg)
      |>.field .sB1Obj (b1Bbr_reads _) (fun _ _ _ hp ⟨_, _, hz, _⟩ => ⟨hz, hp⟩) (congrArg _ hbbr)
      |>.field .sB1Obr (b1Obj_reads _) (fun _ _ _ hp ⟨hz, _⟩ => ⟨hz, hp⟩) (congrArg _ hobj)
      |>.field .sRes (b1Obr_reads _) (fun _ _ _ hp ⟨_, _, _, hz, _⟩ => ⟨hz, hp⟩) (congrArg _ hobr)
      |>.resolution hres
      |>.finish crc2
      |>.finishes hbegin (by decide)⟩
  | hdrHoa nn sr crc1 ord res br crc2 _ =>
    obtain ⟨hord, hres, hbr⟩ := hfields
    exact ⟨_, rfl, runPrefix_fieldRun 2#3 .sCOrd (fun _ => rfl) rfl s
      |>.field .sRes (ord_reads _) (fun _ _ _ hp ⟨_, hz, _⟩ => ⟨hz, hp⟩) (congrArg _ hord)
      |>.resolution hres
      |>.bitrate hbr
      |>.finish crc2
      |>.finishes hbegin (by decide)⟩
  | hdrRsvSbt nn sr crc1 sbt _ =>
    have hsel : 2 ≤ sbt.toNat := of_decide_eq_true hwf
    exact ⟨_, rfl, runPrefix_fieldRun 1#3 .sBSbt (fun _ => rfl) rfl s
      |>.soundBed hfields (fun h => absurd h (by omega))
      |>.finishes hbegin (by decide)⟩
  | hdrRsvProf3 nn sr crc1 _ =>
    exact ⟨_, rfl, runPrefix_fieldRun 3#3 .sDone (fun h => absurd h (by decide)) rfl s |>.finishes hbegin (by decide)⟩
  | hdrRsvProf4to7 nn prof sr crc1 _ =>
    have hsel : 4 ≤ prof.toNat := of_decide_eq_true hwf
    exact ⟨_, rfl, runPrefix_fieldRun prof .sDone (fun h => absurd h (by omega)) rfl s |>.finishes hbegin (by decide)⟩

/-- The meaning of a form does not depend on its CRC bytes and the bits after its last field (R61, R111). -/
theorem exec_eraseIgnored (i : Instr) (s : State) : exec i.eraseIgnored s = exec i s := by
  cases i <;> rfl

/-- Two accepts of the same length differ in the captured bytes alone (R140). -/
theorem State.withInput_accept {p q : Ports} (hlen : p.inLen = q.inLen) (s : State) :
    (s.accept p).beginTransaction.withInput q.inData.bytes = s.accept q := by
  rw [State.accept, State.accept, hlen]
  rfl

/-- Settles O51: on either header's bytes the field steps do what the meaning of that header does, and the two headers
have one meaning. -/
theorem ignoredBitsDoNotMatter : Obligations.IgnoredBitsDoNotMatter := by
  intro s p q i j hi hj hij hp hq hlen
  have hmeaning : exec i (s.accept p) = exec j (s.accept p) := by
    rw [← exec_eraseIgnored i, hij, exec_eraseIgnored]
  obtain ⟨t, ht, hrunP⟩ := finishTransaction_encode hi (s.accept p)
  obtain ⟨u, hu, hrunQ⟩ := finishTransaction_encode hj (s.accept p)
  obtain rfl : t = u := Host.Outcome.next.inj (ht.symm.trans (hmeaning.trans hu))
  rw [← hp, State.withInput_accept rfl] at hrunP
  rw [← hq, State.withInput_accept hlen] at hrunQ
  exact ⟨_, _, hrunP, hrunQ, by rw [State.withInput_outputs, State.withInput_outputs]⟩

end Sys2Proof.Machine
end

section
/-! SUPPORT. The decoder and the encoder are inverse: both say of a header and a word that every field of the header is
its slice of the word (spec/30_encoding.md R101 to R105, R108). -/

namespace Sys2Proof

/-- The fields every header has are those of the word: the fixed ones as every form has them, and the other four
(R101). -/
structure HeaderWord.Common (h : HeaderWord) (nn prof : BitVec 3) (sr : BitVec 4) (crc1 : Byte) : Prop where
  sync : 0xFFF#12 = h.slice 60 12
  codec : 2#4 = h.slice 56 4
  anc : 0#1 = h.slice 55 1
  nn : nn = h.slice 52 3
  prof : prof = h.slice 49 3
  sr : sr = h.slice 45 4
  crc1 : crc1 = h.slice 37 8

/-- Every field of the header is its slice of the word (R102 to R105). -/
def Instr.FieldsOf (h : HeaderWord) : Instr → Prop
  | .hdrCh nn sr crc1 cfg res br crc2 pad =>
    h.Common nn 0#3 sr crc1 ∧ cfg = h.slice 30 7 ∧ res = h.slice 28 2 ∧ br = h.slice 24 4 ∧ crc2 = h.slice 16 8 ∧
      pad = h.slice 0 16
  | .hdrObj nn sr crc1 obj obr res crc2 pad =>
    h.Common nn 1#3 sr crc1 ∧ 0#2 = h.slice 35 2 ∧ obj = h.slice 28 7 ∧ obr = h.slice 24 4 ∧ res = h.slice 22 2 ∧
      crc2 = h.slice 14 8 ∧ pad = h.slice 0 14
  | .hdrChobj nn sr crc1 cfg bbr obj obr res crc2 pad =>
    h.Common nn 1#3 sr crc1 ∧ 1#2 = h.slice 35 2 ∧ cfg = h.slice 28 7 ∧ bbr = h.slice 24 4 ∧ obj = h.slice 17 7 ∧
      obr = h.slice 13 4 ∧ res = h.slice 11 2 ∧ crc2 = h.slice 3 8 ∧ pad = h.slice 0 3
  | .hdrHoa nn sr crc1 ord res br crc2 pad =>
    h.Common nn 2#3 sr crc1 ∧ ord = h.slice 33 4 ∧ res = h.slice 31 2 ∧ br = h.slice 27 4 ∧ crc2 = h.slice 19 8 ∧
      pad = h.slice 0 19
  | .hdrRsvSbt nn sr crc1 sbt rest => h.Common nn 1#3 sr crc1 ∧ sbt = h.slice 35 2 ∧ rest = h.slice 0 35
  | .hdrRsvProf3 nn sr crc1 rest => h.Common nn 3#3 sr crc1 ∧ rest = h.slice 0 37
  | .hdrRsvProf4to7 nn prof sr crc1 rest => h.Common nn prof sr crc1 ∧ rest = h.slice 0 37

section
variable {h : HeaderWord}

/-- A concatenation is a slice when its two parts are the two slices it is made of. -/
theorem append_eq_slice {lo v w : Nat} {x : BitVec v} {y : BitVec w} :
    x ++ y = h.slice lo (v + w) ↔ x = h.slice (lo + w) v ∧ y = h.slice lo w := by
  have hsplit : h.slice lo (v + w) = h.slice (lo + w) v ++ h.slice lo w :=
    (BitVec.extractLsb'_append_extractLsb'_eq_extractLsb' rfl).symm
  rw [hsplit]
  constructor
  · intro heq
    have hhigh := congrArg (BitVec.extractLsb' w v) heq
    have hlow := congrArg (BitVec.extractLsb' 0 w) heq
    rw [BitVec.extractLsb'_append_eq_left, BitVec.extractLsb'_append_eq_left] at hhigh
    rw [BitVec.extractLsb'_append_eq_right, BitVec.extractLsb'_append_eq_right] at hlow
    exact ⟨hhigh, hlow⟩
  · rintro ⟨rfl, rfl⟩
    rfl

theorem encodePrefix_eq_slice {nn prof : BitVec 3} {sr : BitVec 4} {crc1 : Byte} :
    encodePrefix nn prof sr crc1 = h.slice 37 35 ↔ h.Common nn prof sr crc1 := by
  unfold encodePrefix
  repeat rw [append_eq_slice]
  constructor
  · rintro ⟨⟨⟨⟨⟨⟨hsync, hcodec⟩, hanc⟩, hnn⟩, hprof⟩, hsr⟩, hcrc1⟩
    exact ⟨hsync, hcodec, hanc, hnn, hprof, hsr, hcrc1⟩
  · rintro ⟨hsync, hcodec, hanc, hnn, hprof, hsr, hcrc1⟩
    exact ⟨⟨⟨⟨⟨⟨hsync, hcodec⟩, hanc⟩, hnn⟩, hprof⟩, hsr⟩, hcrc1⟩

/-- A header's encoding is the word whose slices are the header's fields. -/
theorem encode_eq_iff {i : Instr} : encode i = h ↔ i.FieldsOf h := by
  have hparts : encode i = h ↔ encodeFront i = h.slice 37 35 ∧ encodeRest i = h.slice 0 37 := by
    conv_lhs => rw [← (BitVec.extractLsb'_eq_self : h.slice 0 72 = h), encode]
    exact append_eq_slice
  rw [hparts]
  cases i
  case hdrRsvProf3 | hdrRsvProf4to7 => exact and_congr_left' encodePrefix_eq_slice
  case hdrRsvSbt => exact and_congr encodePrefix_eq_slice append_eq_slice
  all_goals
    refine and_congr encodePrefix_eq_slice ?_
    simp only [encodeRest]
    repeat rw [append_eq_slice]
    simp only [and_assoc, Nat.reduceAdd]

/-- A word decodes when its fixed fields are right (R108). -/
theorem HeaderWord.decode_eq_form_iff {i : Instr} :
    h.decode = .form i ↔ (h.slice 60 12 = 0xFFF#12 ∧ h.slice 56 4 = 2#4 ∧ h.slice 55 1 = 0#1) ∧ h.form = i := by
  unfold HeaderWord.decode
  split_ifs with hsync hcodec hanc
  · simp [hsync]
  · simp [hcodec]
  · simp [hanc]
  · simp_all only [ne_eq, not_not, Decoded.form.injEq, true_and]

/-- The form of a word whose fixed fields are right is well formed and has the word's fields. -/
theorem HeaderWord.fieldsOf_form (hfixed : h.slice 60 12 = 0xFFF#12 ∧ h.slice 56 4 = 2#4 ∧ h.slice 55 1 = 0#1) :
    h.form.wf = true ∧ h.form.FieldsOf h := by
  obtain ⟨hsync, hcodec, hanc⟩ := hfixed
  have hcommon {prof : BitVec 3} (hprof : (h.slice 49 3).toNat = prof.toNat) :
      h.Common (h.slice 52 3) prof (h.slice 45 4) (h.slice 37 8) :=
    ⟨hsync.symm, hcodec.symm, hanc.symm, rfl, (BitVec.eq_of_toNat_eq hprof).symm, rfl, rfl⟩
  unfold HeaderWord.form
  dsimp only
  split
  · next hprof => exact ⟨rfl, hcommon hprof, rfl, rfl, rfl, rfl, rfl⟩
  · next hprof =>
    split
    · next hsbt => exact ⟨rfl, hcommon hprof, (BitVec.eq_of_toNat_eq hsbt).symm, rfl, rfl, rfl, rfl, rfl⟩
    · next hsbt => exact ⟨rfl, hcommon hprof, (BitVec.eq_of_toNat_eq hsbt).symm, rfl, rfl, rfl, rfl, rfl, rfl, rfl⟩
    · next hne0 hne1 => exact ⟨decide_eq_true ((Nat.two_le_iff _).mpr ⟨hne0, hne1⟩), hcommon hprof, rfl, rfl⟩
  · next hprof => exact ⟨rfl, hcommon hprof, rfl, rfl, rfl, rfl, rfl⟩
  · next hprof => exact ⟨rfl, hcommon hprof, rfl⟩
  · next hne0 hne1 hne2 hne3 =>
    have hsel : 4 ≤ (h.slice 49 3).toNat := by
      rw [imp_false] at hne0 hne1 hne2 hne3
      omega
    exact ⟨decide_eq_true hsel, hcommon rfl, rfl⟩

/-- A word with the fields of a well-formed header is of the header's form: its selectors choose it (R108). -/
theorem Instr.FieldsOf.form_eq {i : Instr} (hfields : i.FieldsOf h) (hwf : i.wf = true) : h.form = i := by
  cases i with
  | hdrCh | hdrHoa =>
    obtain ⟨⟨-, -, -, rfl, hprof, rfl, rfl⟩, rfl, rfl, rfl, rfl, rfl⟩ := hfields
    simp [HeaderWord.form, ← hprof]
  | hdrObj =>
    obtain ⟨⟨-, -, -, rfl, hprof, rfl, rfl⟩, hsbt, rfl, rfl, rfl, rfl, rfl⟩ := hfields
    simp [HeaderWord.form, ← hprof, ← hsbt]
  | hdrChobj =>
    obtain ⟨⟨-, -, -, rfl, hprof, rfl, rfl⟩, hsbt, rfl, rfl, rfl, rfl, rfl, rfl, rfl⟩ := hfields
    simp [HeaderWord.form, ← hprof, ← hsbt]
  | hdrRsvSbt =>
    obtain ⟨⟨-, -, -, rfl, hprof, rfl, rfl⟩, rfl, rfl⟩ := hfields
    obtain ⟨n, hn⟩ := Nat.exists_eq_add_of_le' (of_decide_eq_true hwf)
    simp [HeaderWord.form, ← hprof, hn]
  | hdrRsvProf3 =>
    obtain ⟨⟨-, -, -, rfl, hprof, rfl, rfl⟩, rfl⟩ := hfields
    simp [HeaderWord.form, ← hprof]
  | hdrRsvProf4to7 =>
    obtain ⟨⟨-, -, -, rfl, rfl, rfl, rfl⟩, rfl⟩ := hfields
    obtain ⟨n, hn⟩ := Nat.exists_eq_add_of_le' (of_decide_eq_true hwf)
    simp [HeaderWord.form, hn]

theorem encode_fixed (i : Instr) : Laws.EncodedPrefix.Statement i := by
  cases i <;> exact Laws.EncodedPrefix.of_prefix rfl

/-- Decoding and encoding are inverse between the words that decode and the well-formed headers. -/
theorem decode_eq_form_iff_encode_eq {i : Instr} : h.decode = .form i ↔ i.wf = true ∧ encode i = h := by
  rw [HeaderWord.decode_eq_form_iff]
  constructor
  · rintro ⟨hfixed, rfl⟩
    obtain ⟨hwf, hfields⟩ := HeaderWord.fieldsOf_form hfixed
    exact ⟨hwf, encode_eq_iff.mpr hfields⟩
  · rintro ⟨hwf, rfl⟩
    exact ⟨encode_fixed i, (encode_eq_iff.mp rfl).form_eq hwf⟩

end

/-- Settles O1: the slices of an encoded header are its fields. -/
theorem decodeOfEncodeIsTheHeader : Obligations.DecodeOfEncodeIsTheHeader :=
  fun _ hwf => decode_eq_form_iff_encode_eq.mpr ⟨hwf, rfl⟩

/-- Settles O2: the decoded header holds every bit of the word in a field or in the form's fixed fields. -/
theorem decodedWordIsItsEncoding : Obligations.DecodedWordIsItsEncoding :=
  fun _ _ => decode_eq_form_iff_encode_eq.mp

end Sys2Proof
end

section
/-! SUPPORT. The assembler of header statements (spec/30_encoding.md R113). -/

namespace Sys2Proof

/-- Settles O7: `operand` checks each number where it is used, and the first that does not fit its field answers
none. -/
theorem assemblerChecksEveryOperand : Obligations.AssemblerChecksEveryOperand := by
  refine ⟨?ch, ?obj, ?chobj, ?hoa, ?raw⟩
  case raw =>
    intros
    simp only [assembleHeader, Option.bind_eq_bind, Option.pure_def, operand_bind, Nat.reducePow, ite_and,
      apply_ite (Option.map HeaderWord.bytes), Option.map_some, Option.map_none, HeaderWord.bytes_headerWordOf]
  all_goals
    intros
    simp only [assembleHeader, Option.bind_eq_bind, Option.pure_def, operand_bind, Nat.reducePow, ite_and]

end Sys2Proof
end

section
/-! SUPPORT. Every transaction runs to its end, and WAIT is its field steps (spec/40_decode_and_prefix.md R157). -/

namespace Sys2Proof.Machine

/-- The field steps from `S_RES` on, for the profile `F.prof` holds: profile 1 has no `S_BR`. -/
def resLeft (prof : BitVec 3) : Nat :=
  if prof = 1#3 then 3 else 4

/-- The most field steps that the step of a `STATE` value and the ones after it can be, when `F.prof` holds `prof`. -/
def Fsm.stepsLeft (prof : BitVec 3) : Fsm → Nat
  | .sLen => 17
  | .sSync => 16
  | .sCodec => 15
  | .sAnc => 14
  | .sNn => 13
  | .sProf => 12
  | .sSr => 11
  | .sCrc1 => 10
  | .sDispatch => 9
  | .sBSbt => 5 + resLeft prof
  | .sB1Cfg => 4 + resLeft prof
  | .sB1Bbr => 3 + resLeft prof
  | .sB0Obj => 2 + resLeft prof
  | .sB1Obj => 2 + resLeft prof
  | .sACfg => 1 + resLeft prof
  | .sCOrd => 1 + resLeft prof
  | .sB0Obr => 1 + resLeft prof
  | .sB1Obr => 1 + resLeft prof
  | .sRes => resLeft prof
  | .sBr => 3
  | .sCrc2 => 2
  | .sCommit => 1
  | .sIdle => 0
  | .sDone => 0

theorem Fsm.stepsLeft_le (x : Fsm) (prof : BitVec 3) : x.stepsLeft prof ≤ 17 := by
  cases x <;> decide +revert

theorem Fsm.stepsLeft_pos {x : Fsm} (prof : BitVec 3) (hx : x ≠ .sIdle ∧ x ≠ .sDone) : 0 < x.stepsLeft prof := by
  cases x
  case sIdle => exact absurd rfl hx.1
  case sDone => exact absurd rfl hx.2
  all_goals decide +revert

/-- A step whose checks pass leaves fewer. -/
theorem Fsm.Passes.stepsLeft_lt {x y : Fsm} {v : BitVec x.width} {s : State} {w : WorkRegs} (h : x.Passes v s y w) :
    y.stepsLeft (x.put v s.f).prof < x.stepsLeft s.f.prof := by
  cases x with
  | sDispatch =>
    obtain ⟨-, rfl, -⟩ := h
    have hbranch : ∀ prof : BitVec 3, (branchOf prof).stepsLeft prof < 9 := by decide
    exact hbranch s.f.prof
  | sRes =>
    obtain ⟨-, -, -, rfl, -⟩ := h
    have hnext : ∀ prof : BitVec 3,
        (if prof = 1#3 then Fsm.sCrc2 else .sBr).stepsLeft prof < Fsm.sRes.stepsLeft prof := by decide
    exact hnext s.f.prof
  | sBSbt =>
    obtain ⟨-, rfl, -⟩ := h
    have hnext : ∀ (sbt : BitVec 2) (prof : BitVec 3),
        (if sbt.toNat = 0 then Fsm.sB0Obj else .sB1Cfg).stepsLeft prof < Fsm.sBSbt.stepsLeft prof := by decide
    exact hnext v s.f.prof
  | _ => grind [Fsm.Passes, Fsm.put, Fsm.stepsLeft]

/-- The transaction of `s` is over in `t`, which has the captured input and the bookkeeping of `s`. -/
structure State.EndsIn (s t : State) : Prop extends s.SameInput t where
  fsm : t.fsm = .sDone
  busy : t.busy = false
  done : t.done = true

/-- The field step of a transaction under way ends it, or moves on to where fewer steps are left. -/
theorem fieldStep_progress {s : State} (hb : s.busy = true) (hs : s.NamesStep) :
    ∃ t, fieldStep s = .next t ∧ (s.EndsIn t ∨
      t.busy = true ∧ t.NamesStep ∧ s.SameInput t ∧ t.fsm.stepsLeft t.f.prof < s.fsm.stepsLeft s.f.prof) := by
  obtain ⟨u, hu, hstep⟩ := fieldStep_leadsTo hb hs
  have hnext : fieldStep s = .next (u.withOwn s.host s.initialised) := hstep s.host s.initialised
  refine ⟨_, hnext, ?_⟩
  have hnames : (u.withOwn s.host s.initialised).NamesStep := hu
  have hperforms := fieldStep_performs hnext
  have hsame := hperforms.sameInput
  generalize u.withOwn s.host s.initialised = t at *
  obtain ⟨-, rfl⟩ | ⟨-, hdoes⟩ := hperforms
  · exact .inl ⟨hsame, rfl, rfl, rfl⟩
  · cases hdoes with
    | error => exact .inl ⟨hsame, rfl, rfl, rfl⟩
    | pass y w hpass => exact .inr ⟨hb, hnames, hsame, hpass.stepsLeft_lt⟩
    | commit => exact .inl ⟨hsame, rfl, rfl, rfl⟩

/-- As many field steps as may be left end the transaction. -/
theorem runSteps_endsIn (n : Nat) : ∀ {s : State}, s.busy = true → s.NamesStep → s.fsm.stepsLeft s.f.prof ≤ n →
    ∃ t, runSteps n s = .next t ∧ s.EndsIn t := by
  induction n with
  | zero =>
    intro s hb hs hleft
    exact absurd hleft (Nat.not_le.mpr (Fsm.stepsLeft_pos _ (hs hb)))
  | succ n ih =>
    intro s hb hs hleft
    obtain ⟨u, hu, hend | ⟨hbu, hsu, hsame, hlt⟩⟩ := fieldStep_progress hb hs
    · exact ⟨u, by rw [runSteps_busy n hb hu, runSteps_over n hend.busy], hend⟩
    · obtain ⟨t, ht, hend⟩ := ih hbu hsu (by omega)
      exact ⟨t, by rw [runSteps_busy n hb hu, ht], hsame.trans hend.toSameInput, hend.fsm, hend.busy, hend.done⟩

theorem finishTransaction_endsIn {s : State} (hb : s.busy = true) (hs : s.NamesStep) :
    ∃ t, finishTransaction s = .next t ∧ s.EndsIn t :=
  runSteps_endsIn 17 hb hs (Fsm.stepsLeft_le s.fsm s.f.prof)

/-- At a well-formed header whose encoding is captured, the meaning of the header is its field steps. -/
theorem exec_eq_finishTransaction {i : Instr} {s : State} (hwf : i.wf = true) (hs : s.atHeader = true)
    (hib : (encode i).bytes = s.ib) : exec i s = finishTransaction s := by
  obtain ⟨t, hexec, hrun⟩ := finishTransaction_encode hwf s
  rw [← State.eq_beginTransaction_of_atHeader hs, hib] at hrun
  obtain ⟨htib, -⟩ := formsLeaveTheCapturedInput i s t hexec
  have hkept : t.withInput s.ib = t := by rw [← htib]; rfl
  exact hexec.trans (hkept ▸ hrun).symm

/-- WAIT on a running transaction is its field steps: a header that decodes is captured as the encoding of what it
decodes to. -/
theorem waitDone_busy {s : State} (hb : s.busy = true) : waitDone s = finishTransaction s := by
  unfold waitDone fetchAndExec
  rw [if_pos hb]
  split_ifs with hs
  · split
    · next i hdecode =>
      rw [decodeBytes_toList, decode_eq_form_iff_encode_eq] at hdecode
      obtain ⟨hwf, hencode⟩ := hdecode
      exact exec_eq_finishTransaction hwf hs (by rw [hencode, HeaderWord.bytes_headerWordOf])
    · rfl
  · rfl

theorem waitDone_endsIn {s : State} (hs : s.Inv) (hb : s.busy = true) : ∃ t, waitDone s = .next t ∧ s.EndsIn t := by
  rw [waitDone_busy hb]
  exact finishTransaction_endsIn hb hs.busyIff.mp

/-- WAIT at a captured header that decodes and has not begun is the meaning of the header. -/
theorem waitDone_of_decode {s : State} {i : Instr} (hb : s.busy = true) (hs : s.atHeader = true)
    (hi : decodeBytes s.ib.toList = .form i) : waitDone s = exec i s := by
  rw [waitDone, if_pos hb, if_pos hs, fetchAndExec, hi]

end Sys2Proof.Machine
end

section
/-! SUPPORT. What the step does on each host action, and the host actions the host statements are
(spec/30_encoding.md R115). -/

namespace Sys2Proof.Machine

theorem step_of_nil {s : State} (h : s.host = []) : step s = waitDone s := by
  simp only [step, h]

theorem step_of_edge {s : State} {p : Ports} {stall : Bool} {rest : List HostAction}
    (h : s.host = .edge p stall :: rest) : step s = clockEdge p stall (s.withHost rest) := by
  simp only [step, h]

theorem step_of_edgeWhenReady {s : State} {p : Ports} {rest : List HostAction} (h : s.host = .edgeWhenReady p :: rest) :
    step s = if s.busy then waitDone s else clockEdge p false (s.withHost rest) := by
  simp only [step, h]

theorem step_of_wait {s : State} {rest : List HostAction} (h : s.host = .wait :: rest) (hb : s.busy = true) :
    step s = waitDone (s.withHost rest) := by
  simp [step, h, hb]

/-- An accept, at an idle block that has seen a reset (R140). -/
theorem clockEdge_accept {p : Ports} {stall : Bool} {s : State} (hrst : p.rst = false) (hstart : p.start = true)
    (hb : s.busy = false) (hinit : s.initialised = true) : clockEdge p stall s = .next (s.accept p) := by
  simp [clockEdge, hrst, hstart, hb, hinit]

theorem hostAction_decode {h : HeaderStmt} {w : HeaderWord} {len : Nat} (hw : assembleHeader h = some w)
    (hlen : len < 16) :
    hostAction (.decode h len) =
      some (.edgeWhenReady { rst := false, start := true, inData := w, inLen := BitVec.ofNat 4 len }) := by
  simp [hostAction, hw, operand_of_lt (w := 4) hlen]

/-- Settles O22: WAIT runs the field steps, of which at most 17 are left. -/
theorem waitEndsWithDone : Obligations.WaitEndsWithDone := by
  intro s rest hs hb hhost
  obtain ⟨t, ht, hend⟩ := waitDone_endsIn (hs.withHost rest) hb
  exact ⟨t, (step_of_wait hhost hb).trans ht, hend.done, hend.busy, hend.host⟩

/-- Settles O8: whether no action or a WAIT is next, the step is WAIT's. -/
theorem stepRunsTheDecodedHeader : Obligations.StepRunsTheDecodedHeader := by
  intro s i hb hs hi
  constructor
  · intro hhost
    rw [step_of_nil hhost, waitDone_of_decode hb hs hi]
  · intro rest hhost
    have hheader : (s.withHost rest).atHeader = true := (State.atHeader_withHost rest s).trans hs
    rw [step_of_wait hhost hb, waitDone_of_decode (s := s.withHost rest) hb hheader hi]

/-- Settles O17: DECODE is an accept edge held back while the block is busy, RESET an edge with `rst = 1`. -/
theorem hostStatementsDriveThePorts : Obligations.HostStatementsDriveThePorts := by
  intro s rest
  constructor
  · intro h w len a hw hlen ha hhost
    obtain rfl := Option.some.inj ((hostAction_decode hw hlen).symm.trans ha)
    have hstep := step_of_edgeWhenReady hhost
    constructor
    · intro hb hinit
      rw [hstep, if_neg (by simp [hb])]
      exact clockEdge_accept rfl rfl hb hinit
    · intro hs hb
      obtain ⟨t, ht, hend⟩ := waitDone_endsIn hs hb
      rw [hstep, if_pos hb]
      exact ⟨t, ht, hend.done, hend.busy, hend.host⟩
  · intro a ha hhost
    obtain rfl := Option.some.inj ha
    exact step_of_edge hhost

end Sys2Proof.Machine
end

section
/-! SUPPORT. One clock edge of a busy and of an idle block, and runs of edges as runs of field steps
(spec/40_decode_and_prefix.md R140 to R142, R157, R158). -/

namespace Sys2Proof.Machine

/-- Settles O10: the captured bytes are the header's encoding, on which the field steps are the header's meaning. -/
theorem fieldStepsRunTheMeaningOfTheHeader : Obligations.FieldStepsRunTheMeaningOfTheHeader := by
  intro s p i hwf hin
  have hib : (encode i).bytes = (s.accept p).ib := by rw [State.accept_ib, hin]
  exact (exec_eq_finishTransaction hwf (State.atHeader_accept p s) hib).symm

/-- A busy block without a reset looks at the stall alone (R141, R142). -/
theorem clockEdge_busy {p : Ports} {stall : Bool} {s : State} (hrst : p.rst = false) (hb : s.busy = true) :
    clockEdge p stall s = if stall then .next s else fieldStep s := by
  simp [clockEdge, hrst, hb]

/-- An idle block without a reset or a start holds (R158). -/
theorem clockEdge_hold {p : Ports} {stall : Bool} {s : State} (hrst : p.rst = false) (hstart : p.start = false)
    (hb : s.busy = false) : clockEdge p stall s = .next s := by
  simp [clockEdge, hrst, hstart, hb]

/-- Settles O11: the edge is an accept, and the boot flag stays set. -/
theorem acceptCapturesAndClears : Obligations.AcceptCapturesAndClears := by
  intro s p stall hrst hstart hb hinit
  rw [clockEdge_accept hrst hstart hb hinit, State.accept_eq_withOwn p s s, hinit]
  rfl

/-- Settles O12: neither edge looks at `start` or the data. -/
theorem startWhileBusyIsIgnored : Obligations.StartWhileBusyIsIgnored := by
  intro s p q stall hb hp hq
  rw [clockEdge_busy hp hb, clockEdge_busy hq hb]

/-- Settles O13: the two values of the stall. -/
theorem busyEdgeStallsOrPerformsTheStep : Obligations.BusyEdgeStallsOrPerformsTheStep :=
  fun _ _ hb hrst => ⟨clockEdge_busy hrst hb, clockEdge_busy hrst hb⟩

/-- Settles O15: such an edge is the last case of `clockEdge`. -/
theorem waitingStatesHold : Obligations.WaitingStatesHold :=
  fun _ _ _ hb hrst hstart => clockEdge_hold hrst hstart hb

/-- A run that answers a next state has performed its first field step. -/
theorem runSteps_succ_next {n : Nat} {s t : State} (hb : s.busy = true) (h : runSteps (n + 1) s = .next t) :
    ∃ u, fieldStep s = .next u ∧ runSteps n u = .next t := by
  rw [runSteps, if_pos hb] at h
  cases hu : fieldStep s with
  | next u =>
    rw [hu] at h
    exact ⟨u, rfl, h⟩
  | fault e =>
    rw [hu] at h
    exact nomatch h
  | refused e =>
    rw [hu] at h
    exact nomatch h

/-- More field steps do not change where a transaction has ended. -/
theorem runSteps_of_over (m : Nat) : ∀ {n : Nat} {s t : State}, runSteps m s = .next t → t.busy = false → m ≤ n →
    runSteps n s = .next t := by
  induction m with
  | zero =>
    intro n s t h ht _
    obtain rfl := Host.Outcome.next.inj h
    exact runSteps_over n ht
  | succ m ih =>
    intro n s t h ht hle
    obtain ⟨n, rfl⟩ := Nat.exists_eq_add_of_le' (Nat.one_le_of_lt hle)
    cases hb : s.busy with
    | false => rw [runSteps_over _ hb, ← h, runSteps_over _ hb]
    | true =>
      obtain ⟨u, hu, hrest⟩ := runSteps_succ_next hb h
      rw [runSteps_busy n hb hu]
      exact ih hrest ht (by omega)

/-- A busy block at `S_IDLE` or `S_DONE` faults, however many field steps are asked for (log 11). -/
theorem runSteps_fault {s : State} (n : Nat) (hb : s.busy = true) (hx : s.fsm = .sIdle ∨ s.fsm = .sDone) :
    runSteps (n + 1) s = .fault .noFieldStep := by
  have hfault : fieldStep s = .fault .noFieldStep := hx.elim fieldStep_sIdle fieldStep_sDone
  simp only [runSteps, hb, hfault, if_true]

/-- From 17 on the number of field steps asked for does not matter. -/
theorem runSteps_eq_finishTransaction {n : Nat} (hn : 17 ≤ n) (s : State) : runSteps n s = finishTransaction s := by
  cases hb : s.busy with
  | false => rw [finishTransaction, runSteps_over n hb, runSteps_over 17 hb]
  | true =>
    by_cases hx : s.fsm = .sIdle ∨ s.fsm = .sDone
    · obtain ⟨k, rfl⟩ := Nat.exists_eq_add_of_le' hn
      rw [finishTransaction, runSteps_fault _ hb hx, runSteps_fault _ hb hx]
    · obtain ⟨t, ht, hend⟩ := finishTransaction_endsIn hb fun _ => not_or.mp hx
      rw [ht]
      exact runSteps_of_over 17 ht hend.busy hn

/-- Edges without a reset perform one field step for each edge that is no stall. -/
theorem edgesWhileBusy_eq_runSteps (es : List (Ports × Bool)) (hrst : ∀ e ∈ es, e.1.rst = false) (s : State) :
    edgesWhileBusy es s = runSteps (es.countP fun e => !e.2) s := by
  induction es generalizing s with
  | nil => rfl
  | cons e es ih =>
    obtain ⟨p, stall⟩ := e
    obtain ⟨hp, hes⟩ := List.forall_mem_cons.mp hrst
    cases hb : s.busy with
    | false => rw [runSteps_over _ hb, edgesWhileBusy, if_neg (by simp [hb])]
    | true =>
      rw [edgesWhileBusy, if_pos hb, clockEdge_busy hp hb]
      cases stall with
      | true => exact ih hes s
      | false =>
        rw [List.countP_cons_of_pos rfl, runSteps, if_pos hb]
        cases fieldStep s with
        | next t => exact ih hes t
        | fault | refused => rfl

/-- Settles O19: the edges without a stall are field steps, of which 17 are enough. -/
theorem stallsAndPortsDoNotChangeTheOutcome : Obligations.StallsAndPortsDoNotChangeTheOutcome := by
  intro s es hrst hcount
  rw [edgesWhileBusy_eq_runSteps es hrst, runSteps_eq_finishTransaction hcount]

/-- Settles O20: at most 17 field steps are left at any step. -/
theorem transactionEndsWithinSeventeenSteps : Obligations.TransactionEndsWithinSeventeenSteps := by
  intro s hb hidle hdone
  obtain ⟨t, ht, hend⟩ := finishTransaction_endsIn hb fun _ => ⟨hidle, hdone⟩
  exact ⟨t, ht, hend.busy, hend.done, hend.fsm⟩

theorem clockEdge_answers {s : State} (hs : s.Inv) (p : Ports) (stall : Bool) : ∃ t, clockEdge p stall s = .next t := by
  cases hrst : p.rst with
  | true => exact ⟨s.afterReset, if_pos hrst⟩
  | false =>
    cases hb : s.busy with
    | true =>
      obtain ⟨t, ht, -⟩ := fieldStep_progress hb hs.busyIff.mp
      rw [clockEdge_busy hrst hb]
      cases stall with
      | true => exact ⟨s, rfl⟩
      | false => exact ⟨t, ht⟩
    | false =>
      cases hstart : p.start with
      | true => exact ⟨_, clockEdge_accept hrst hstart hb hs.initialised⟩
      | false => exact ⟨_, clockEdge_hold hrst hstart hb⟩

theorem waitDone_answers {s : State} (hs : s.Inv) : ∃ t, waitDone s = .next t := by
  cases hb : s.busy with
  | true =>
    obtain ⟨t, ht, -⟩ := waitDone_endsIn hs hb
    exact ⟨t, ht⟩
  | false => exact ⟨s, if_neg (by simp [hb])⟩

/-- Settles O46: every step is a clock edge, a transaction run to its end, or a WAIT that waits on. -/
theorem invariantStatesNeverStop : Obligations.InvariantStatesNeverStop := by
  intro s hs
  obtain ⟨-, hstep⟩ | ⟨p, stall, rest, -, hstep⟩ | ⟨p, rest, -, hstep⟩ | ⟨rest, -, hstep⟩ := step_of_host s
  · rw [hstep]
    exact waitDone_answers hs
  · rw [hstep]
    exact clockEdge_answers (hs.withHost rest) p stall
  · rw [hstep]
    split
    · exact waitDone_answers hs
    · exact clockEdge_answers (hs.withHost rest) p false
  · rw [hstep]
    split
    · exact waitDone_answers (hs.withHost rest)
    · exact ⟨s, rfl⟩

end Sys2Proof.Machine
end

section
/-! SUPPORT. What a field step does to the outputs: the cursor guard, the errors, and the three ways a step can go
(spec/40_decode_and_prefix.md R142, R145, spec/60_exceptions.md R300, R301). -/

namespace Sys2Proof.Machine

/-- An update that takes no BufferExhausted. -/
def NeverExhausts (body : State → State) : Prop :=
  ∀ s, s.errCode ≠ 8 → (body s).errCode ≠ 8

theorem State.raise_errCode_ne {e : HeaderError} (he : e ≠ .bufferExhausted) (pos : StreamPos) (s : State) :
    (s.raise e pos).errCode ≠ 8 := by
  rw [State.raise_errCode]
  cases e
  case bufferExhausted => exact absurd rfl he
  all_goals decide

theorem bitrateLookup_error {c : Nat} {i : BitVec 4} {e : HeaderError} (h : bitrateLookup c i = .error e) :
    e ≠ .bufferExhausted := by
  rintro rfl
  obtain ⟨-, he⟩ | ⟨-, he⟩ | ⟨_, -, -, hok⟩ := bitrateLookup_cases c i
  · exact nomatch he.symm.trans h
  · exact nomatch he.symm.trans h
  · exact nomatch hok.symm.trans h

theorem syncBody_neverExhausts (v : BitVec 12) : NeverExhausts (syncBody v) := by
  intro s hs
  unfold syncBody
  split
  · exact State.raise_errCode_ne (by decide) _ _
  · exact hs

theorem codecBody_neverExhausts (v : BitVec 4) : NeverExhausts (codecBody v) := by
  intro s hs
  unfold codecBody
  split
  · exact State.raise_errCode_ne (by decide) _ _
  · exact hs

theorem ancBody_neverExhausts (v : BitVec 1) : NeverExhausts (ancBody v) := by
  intro s hs
  unfold ancBody
  split
  · exact State.raise_errCode_ne (by decide) _ _
  · exact hs

theorem srBody_neverExhausts (v : BitVec 4) : NeverExhausts (srBody v) := by
  intro s hs
  unfold srBody
  split
  · exact State.raise_errCode_ne (by decide) _ _
  · exact hs

theorem dispatchStep_neverExhausts : NeverExhausts dispatchStep := by
  intro s hs
  unfold dispatchStep
  split
  · exact hs
  · exact hs
  · exact hs
  · exact State.raise_errCode_ne (by decide) _ _

theorem aCfgBody_neverExhausts (v : BitVec 7) : NeverExhausts (aCfgBody v) := by
  intro s hs
  unfold aCfgBody
  split
  · exact State.raise_errCode_ne (by decide) _ _
  · split
    · exact State.raise_errCode_ne (by decide) _ _
    · exact hs

theorem sbtBody_neverExhausts (v : BitVec 2) : NeverExhausts (sbtBody v) := by
  intro s hs
  unfold sbtBody
  split
  · exact hs
  · exact hs
  · exact State.raise_errCode_ne (by decide) _ _

theorem b0ObrBody_neverExhausts (v : BitVec 4) : NeverExhausts (b0ObrBody v) := by
  intro s hs
  unfold b0ObrBody
  split
  · next he => exact State.raise_errCode_ne (bitrateLookup_error he) _ _
  · exact hs

theorem b1CfgBody_neverExhausts (v : BitVec 7) : NeverExhausts (b1CfgBody v) := by
  intro s hs
  unfold b1CfgBody
  split
  · exact State.raise_errCode_ne (by decide) _ _
  · exact hs

theorem b1BbrBody_neverExhausts (v : BitVec 4) : NeverExhausts (b1BbrBody v) := by
  intro s hs
  dsimp only [b1BbrBody]
  split
  · next he => exact State.raise_errCode_ne (bitrateLookup_error he) _ _
  · exact hs

theorem b1ObrBody_neverExhausts (v : BitVec 4) : NeverExhausts (b1ObrBody v) := by
  intro s hs
  unfold b1ObrBody
  split
  · next he => exact State.raise_errCode_ne (bitrateLookup_error he) _ _
  · exact hs

theorem ordBody_neverExhausts (v : BitVec 4) : NeverExhausts (ordBody v) := by
  intro s hs
  dsimp only [ordBody]
  split
  · exact hs
  · exact State.raise_errCode_ne (by decide) _ _

theorem resBody_neverExhausts (p0 : StreamPos) (v : BitVec 2) : NeverExhausts (resBody p0 v) := by
  intro s hs
  cases h : resolutionClass v with
  | none =>
    rw [resBody_invalid h]
    exact State.raise_errCode_ne (by decide) _ _
  | some c =>
    rw [resBody_valid h]
    exact hs

theorem brBody_neverExhausts (p0 : StreamPos) (v : BitVec 4) : NeverExhausts (brBody p0 v) := by
  intro s hs
  dsimp only [brBody]
  split
  · next he => exact State.raise_errCode_ne (bitrateLookup_error he) _ _
  · exact hs

/-- Every step with a field reads or skips it and then runs a body that takes no BufferExhausted of its own. -/
theorem Fsm.exists_reads {x : Fsm} (hw : 0 < x.width) (c : StreamPos) :
    ∃ body, x.Reads c body ∧ ∀ v, NeverExhausts (body v) := by
  cases x with
  | sIdle | sLen | sDispatch | sCommit | sDone => exact absurd hw (by decide)
  | sSync => exact ⟨_, sync_reads c, syncBody_neverExhausts⟩
  | sCodec => exact ⟨_, codec_reads c, codecBody_neverExhausts⟩
  | sAnc => exact ⟨_, anc_reads c, ancBody_neverExhausts⟩
  | sNn => exact ⟨_, nn_reads c, fun _ _ hs => hs⟩
  | sProf => exact ⟨_, prof_reads c, fun _ _ hs => hs⟩
  | sSr => exact ⟨_, sr_reads c, srBody_neverExhausts⟩
  | sCrc1 => exact ⟨_, crc1_reads c, fun _ _ hs => hs⟩
  | sACfg => exact ⟨_, aCfg_reads c, aCfgBody_neverExhausts⟩
  | sBSbt => exact ⟨_, sbt_reads c, sbtBody_neverExhausts⟩
  | sB0Obj => exact ⟨_, b0Obj_reads c, fun _ _ hs => hs⟩
  | sB0Obr => exact ⟨_, b0Obr_reads c, b0ObrBody_neverExhausts⟩
  | sB1Cfg => exact ⟨_, b1Cfg_reads c, b1CfgBody_neverExhausts⟩
  | sB1Bbr => exact ⟨_, b1Bbr_reads c, b1BbrBody_neverExhausts⟩
  | sB1Obj => exact ⟨_, b1Obj_reads c, fun _ _ hs => hs⟩
  | sB1Obr => exact ⟨_, b1Obr_reads c, b1ObrBody_neverExhausts⟩
  | sCOrd => exact ⟨_, ord_reads c, ordBody_neverExhausts⟩
  | sRes => exact ⟨_, res_reads c, resBody_neverExhausts c⟩
  | sBr => exact ⟨_, br_reads c, brBody_neverExhausts c⟩
  | sCrc2 => exact ⟨_, crc2_reads c, fun _ _ hs => hs⟩

theorem Fsm.width_legal {x : Fsm} (hw : 0 < x.width) : 0 < x.width ∧ x.width ≤ 32 :=
  ⟨hw, x.width_le.trans (by decide)⟩

/-- The steps past `S_LEN` without a field. -/
theorem Fsm.width_pos_or {x : Fsm} (hx : x ≠ .sIdle ∧ x ≠ .sLen ∧ x ≠ .sDone) :
    0 < x.width ∨ x = .sDispatch ∨ x = .sCommit := by
  revert hx
  cases x <;> decide

/-- Settles O36: the step's read takes the guard's branch. -/
theorem cursorGuardTakesBufferExhausted : Obligations.CursorGuardTakesBufferExhausted := by
  intro s hw hpast
  obtain ⟨body, hreads, -⟩ := Fsm.exists_reads hw s.cur
  rw [hreads.step s rfl rfl, readThen_exhausted (Fsm.width_legal hw) hpast]
  rfl

/-- Past `S_LEN` nine bytes are captured. -/
theorem State.Stage.full {s : State} (h : s.Stage) (hfsm : s.fsm ≠ .sIdle ∧ s.fsm ≠ .sLen ∧ s.fsm ≠ .sDone) :
    9 ≤ s.len.toNat := by
  generalize hx : s.fsm = x at hfsm
  simp only [State.Stage, hx] at h
  cases x with
  | sIdle | sLen | sDone => exact absurd hfsm (by decide)
  | _ =>
    obtain ⟨-, hlen, -⟩ := h
    exact hlen

/-- Settles O37: past `S_LEN` nine bytes are captured and every field ends within 69 bits, so no read fails; and no step
but `S_LEN` takes BufferExhausted of its own. -/
theorem cursorGuardNeverFires : Obligations.CursorGuardNeverFires := by
  intro s t hs hb hnotLen h
  obtain ⟨hnotIdle, hnotDone⟩ := hs.busyIff.mp hb
  have hcode : s.errCode ≠ 8 := by
    rw [(hs.running hb).errCode]
    decide
  obtain hw | hx | hx := Fsm.width_pos_or ⟨hnotIdle, hnotLen, hnotDone⟩
  · obtain ⟨body, hreads, hnever⟩ := Fsm.exists_reads hw s.cur
    have hfit : s.cur.toNat + s.fsm.width ≤ s.availableBits := by
      rw [availableBits_full (hs.stage.full ⟨hnotIdle, hnotLen, hnotDone⟩)]
      exact hs.stage.cur_le.trans (by decide)
    rw [hreads.step s rfl rfl, readThen_fits (Fsm.width_legal hw) hfit] at h
    obtain rfl := Host.Outcome.next.inj h
    exact hnever _ _ hcode
  · rw [fieldStep_sDispatch hx] at h
    obtain rfl := Host.Outcome.next.inj h
    exact dispatchStep_neverExhausts s hcode
  · rw [fieldStep_sCommit hx] at h
    obtain rfl := Host.Outcome.next.inj h
    exact hcode

/-- No step's checks pass into `S_LEN`, where the most steps are left. -/
theorem Fsm.Passes.ne_sLen {x y : Fsm} {v : BitVec x.width} {s : State} {w : WorkRegs} (h : x.Passes v s y w) :
    y ≠ .sLen := by
  rintro rfl
  exact Nat.lt_irrefl 17 (h.stepsLeft_lt.trans_le (Fsm.stepsLeft_le x s.f.prof))

/-- Settles O38: the commit apart, a step passes its checks or takes an error, its own or the cursor guard's. -/
theorem fieldStepMovesOnOrEnds : Obligations.FieldStepMovesOnOrEnds := by
  intro s t hb h
  by_cases hx : s.fsm = .sCommit
  · rw [fieldStep_sCommit hx] at h
    obtain rfl := Host.Outcome.next.inj h
    exact .inr (.inl ⟨hx, rfl, rfl, rfl, rfl, rfl, rfl⟩)
  · obtain ⟨-, rfl⟩ | ⟨-, hdoes⟩ := fieldStep_performs h
    · have hcode := HeaderError.code_range .bufferExhausted
      exact .inr (.inr ⟨hx, rfl, rfl, rfl, rfl, hcode.1, hcode.2, rfl⟩)
    · cases hdoes with
      | error e pos => exact .inr (.inr ⟨hx, rfl, rfl, rfl, rfl, e.code_range.1, e.code_range.2, rfl⟩)
      | pass y w hpass =>
        obtain ⟨hidle, hdone⟩ := hpass.namesStep
        exact .inl ⟨hx, hidle, hpass.ne_sLen, hdone, hb, rfl, rfl, rfl, rfl, rfl⟩
      | commit hc => exact absurd hc hx

end Sys2Proof.Machine
end

section
/-! SUPPORT. How many field steps a success takes: exactly those of the sequence the captured coding profile and
sound-bed type select (spec/40_decode_and_prefix.md R157). -/

namespace Sys2Proof.Machine

/-- The field steps after `S_DISPATCH` in the sequence of the form that `prof` and `sbt` select (spec/30_encoding.md
R108); a reserved form ends in its own error. -/
def branchSteps (prof : BitVec 3) (sbt : BitVec 2) : Nat :=
  match prof.toNat with
  | 0 => 5
  | 1 =>
    match sbt.toNat with
    | 0 => 6
    | 1 => 8
    | _ => 1
  | 2 => 5
  | _ => 0

/-- The field steps from the step of a `STATE` value to the end of that sequence, its own step among them. -/
def Fsm.stepsToEnd (prof : BitVec 3) (sbt : BitVec 2) : Fsm → Nat
  | .sLen => branchSteps prof sbt + 9
  | .sSync => branchSteps prof sbt + 8
  | .sCodec => branchSteps prof sbt + 7
  | .sAnc => branchSteps prof sbt + 6
  | .sNn => branchSteps prof sbt + 5
  | .sProf => branchSteps prof sbt + 4
  | .sSr => branchSteps prof sbt + 3
  | .sCrc1 => branchSteps prof sbt + 2
  | .sDispatch => branchSteps prof sbt + 1
  | .sBSbt => branchSteps prof sbt
  | .sB1Cfg => resLeft prof + 4
  | .sB1Bbr => resLeft prof + 3
  | .sB1Obj => resLeft prof + 2
  | .sB0Obj => resLeft prof + 2
  | .sACfg => resLeft prof + 1
  | .sCOrd => resLeft prof + 1
  | .sB0Obr => resLeft prof + 1
  | .sB1Obr => resLeft prof + 1
  | .sRes => resLeft prof
  | .sBr => 3
  | .sCrc2 => 2
  | .sCommit => 1
  | .sIdle => 0
  | .sDone => 0

/-- The steps after `S_PROF`, which writes `F.prof`. -/
def Fsm.afterProf : Fsm → Bool
  | .sIdle => false
  | .sLen => false
  | .sSync => false
  | .sCodec => false
  | .sAnc => false
  | .sNn => false
  | .sProf => false
  | _ => true

/-- The coding profile in the captured bytes (spec/30_encoding.md R101). -/
def State.ibProf (s : State) : BitVec 3 :=
  memRead s.ib 20 3

/-- The sound-bed type in the captured bytes, where profile 1 has it (spec/30_encoding.md R103). -/
def State.ibSbt (s : State) : BitVec 2 :=
  memRead s.ib 35 2

/-- A step whose checks pass is one step of the sequence, if `F.prof` and the sound bed read select the sequence. -/
theorem Fsm.Passes.stepsToEnd_eq {x y : Fsm} {v : BitVec x.width} {s : State} {w : WorkRegs} {prof : BitVec 3}
    {sbt : BitVec 2} (h : x.Passes v s y w) (hprof : x.afterProf = true → s.f.prof = prof)
    (hsbt : x = .sBSbt → prof = 1 ∧ v.toNat = sbt.toNat) :
    x.stepsToEnd prof sbt = y.stepsToEnd prof sbt + 1 := by
  cases x with
  | sDispatch =>
    obtain ⟨hle, rfl, -⟩ := h
    rw [hprof rfl] at hle ⊢
    have hbranch : ∀ (prof : BitVec 3) (sbt : BitVec 2), prof.toNat ≤ 2 →
        Fsm.sDispatch.stepsToEnd prof sbt = (branchOf prof).stepsToEnd prof sbt + 1 := by decide
    exact hbranch prof sbt hle
  | sBSbt =>
    obtain ⟨hle, rfl, -⟩ := h
    obtain ⟨rfl, hv⟩ := hsbt rfl
    rw [hv] at hle ⊢
    have hnext : ∀ sbt : BitVec 2, sbt.toNat ≤ 1 → Fsm.sBSbt.stepsToEnd 1 sbt =
        (if sbt.toNat = 0 then Fsm.sB0Obj else .sB1Cfg).stepsToEnd 1 sbt + 1 := by decide
    exact hnext sbt hle
  | sRes =>
    obtain ⟨-, -, -, rfl, -⟩ := h
    rw [hprof rfl]
    have hnext : ∀ (prof : BitVec 3) (sbt : BitVec 2), Fsm.sRes.stepsToEnd prof sbt =
        (if prof = 1#3 then Fsm.sCrc2 else .sBr).stepsToEnd prof sbt + 1 := by decide
    exact hnext prof sbt
  | sSync | sAnc | sNn | sProf | sCrc1 | sB0Obj | sB1Obj | sCrc2 =>
    obtain ⟨rfl, -⟩ := h
    rfl
  | sLen | sCodec | sB1Cfg | sCOrd =>
    obtain ⟨-, rfl, -⟩ := h
    rfl
  | sSr | sB0Obr | sB1Bbr | sBr =>
    obtain ⟨-, -, rfl, -⟩ := h
    rfl
  | sB1Obr =>
    obtain ⟨-, -, -, rfl, -⟩ := h
    rfl
  | sACfg =>
    obtain ⟨-, -, -, -, rfl, -⟩ := h
    rfl
  | sIdle | sCommit | sDone => exact h.elim

/-- What the count rests on: the registers are where the steps so far left them, `F.prof` among them. -/
structure State.Counted (s : State) : Prop where
  stage : s.Stage
  prof : s.fsm.afterProf = true → s.f.prof = s.ibProf

theorem Fsm.put_prof {x : Fsm} (hx : x ≠ .sProf) (v : BitVec x.width) (f : FieldRegs) : (x.put v f).prof = f.prof := by
  cases x
  case sProf => exact absurd rfl hx
  all_goals rfl

/-- Only `S_PROF` leads from the steps up to it to the steps after it. -/
theorem Fsm.Passes.afterProf {x y : Fsm} {v : BitVec x.width} {s : State} {w : WorkRegs} (h : x.Passes v s y w)
    (hx : x ≠ .sProf) (hy : y.afterProf = true) : x.afterProf = true := by
  cases x with
  | sProf => exact absurd rfl hx
  | sIdle => exact h.elim
  | sLen | sCodec =>
    obtain ⟨-, rfl, -⟩ := h
    exact hy
  | sSync | sAnc | sNn =>
    obtain ⟨rfl, -⟩ := h
    exact hy
  | _ => rfl

theorem State.Counted.pass {s : State} {x y : Fsm} {w : WorkRegs} (h : s.Counted) (hx : s.fsm = x)
    (hp : x.Passes (memRead s.ib s.cur.toNat x.width) (s.advance x.width) y w) :
    (s.passed x (memRead s.ib s.cur.toNat x.width) y w).Counted := by
  refine ⟨h.stage.pass hx hp, fun hy => ?_⟩
  by_cases hprof : x = .sProf
  · subst hprof
    have hst := h.stage
    simp only [State.Stage, hx] at hst
    obtain ⟨hcur, -⟩ := hst
    exact congrArg (memRead s.ib · 3) hcur
  · exact (Fsm.put_prof hprof _ _).trans (h.prof (hx ▸ hp.afterProf hprof hy))

/-- At `S_B_SBT` the sound-bed type is next to be read, for coding profile 1. -/
theorem State.Counted.soundBed {s : State} (h : s.Counted) (hx : s.fsm = .sBSbt) :
    s.ibProf = 1 ∧ memRead s.ib s.cur.toNat 2 = s.ibSbt := by
  have hst := h.stage
  simp only [State.Stage, hx] at hst
  obtain ⟨hcur, -, -, -, hprof⟩ := hst
  exact ⟨(h.prof (by rw [hx]; rfl)).symm.trans hprof, congrArg (memRead s.ib · 2) hcur⟩

/-- A transaction that succeeds takes exactly the field steps of its sequence. -/
theorem State.Counted.success {m : Nat} : ∀ {s t : State}, s.Counted → s.busy = true → runSteps m s = .next t →
    t.busy = false → t.err = false →
    ∃ n, s.fsm.stepsToEnd s.ibProf s.ibSbt = n + 1 ∧ (∃ u, runSteps n s = .next u ∧ u.busy = true) ∧
      runSteps (n + 1) s = .next t := by
  induction m with
  | zero =>
    intro s t _ hb h ht _
    obtain rfl := Host.Outcome.next.inj h
    exact absurd (hb.symm.trans ht) nofun
  | succ m ih =>
    intro s t hs hb h ht herr
    obtain ⟨v, hv, hrest⟩ := runSteps_succ_next hb h
    have hover (hvb : v.busy = false) : v = t := Host.Outcome.next.inj ((runSteps_over m hvb).symm.trans hrest)
    obtain ⟨-, rfl⟩ | ⟨-, hdoes⟩ := fieldStep_performs hv
    · obtain rfl := hover rfl
      exact nomatch herr
    · generalize hx : s.fsm = x at hdoes
      cases hdoes with
      | error e pos =>
        obtain rfl := hover rfl
        exact nomatch herr
      | commit hcommit =>
        subst hcommit
        obtain rfl := hover rfl
        exact ⟨0, rfl, ⟨s, rfl, hb⟩, by rw [runSteps_busy 0 hb hv]; rfl⟩
      | pass y w hpass =>
        obtain ⟨n, hn, ⟨u, hu, hub⟩, hend⟩ := ih (hs.pass hx hpass) hb hrest ht herr
        have hcount := hpass.stepsToEnd_eq (prof := s.ibProf) (sbt := s.ibSbt) (fun ha => hs.prof (hx ▸ ha)) (by
          rintro rfl
          obtain ⟨hprof, hsbt⟩ := hs.soundBed hx
          exact ⟨hprof, congrArg BitVec.toNat hsbt⟩)
        exact ⟨n + 1, hcount.trans (congrArg (· + 1) hn), ⟨u, (runSteps_busy n hb hv).trans hu, hub⟩,
          (runSteps_busy (n + 1) hb hv).trans hend⟩

theorem State.counted_accept (p : Ports) (s : State) : (s.accept p).Counted :=
  ⟨And.intro rfl rfl, nofun⟩

/-- The captured bytes of a well-formed header select the sequence of its form. -/
theorem stepsToEnd_encode {i : Instr} (hwf : i.wf = true) :
    Fsm.sLen.stepsToEnd (memRead (encode i).bytes 20 3) (memRead (encode i).bytes 35 2) = i.steps := by
  have hfields : i.FieldsOf (encode i) := encode_eq_iff.mp rfl
  rw [memRead_bytes, memRead_bytes]
  generalize encode i = h at hfields
  cases i with
  | hdrCh | hdrHoa =>
    obtain ⟨hcommon, -⟩ := hfields
    rw [← hcommon.prof]
    rfl
  | hdrObj | hdrChobj =>
    obtain ⟨hcommon, hsbt, -⟩ := hfields
    rw [← hcommon.prof, ← hsbt]
    rfl
  | hdrRsvSbt nn sr crc1 sbt =>
    obtain ⟨hcommon, hsbt, -⟩ := hfields
    rw [← hcommon.prof, ← hsbt]
    have hsteps : ∀ sbt : BitVec 2, 2 ≤ sbt.toNat → Fsm.sLen.stepsToEnd 1 sbt = 10 := by decide
    exact hsteps sbt (of_decide_eq_true hwf)
  | hdrRsvProf3 =>
    obtain ⟨hcommon, -⟩ := hfields
    rw [← hcommon.prof]
    rfl
  | hdrRsvProf4to7 nn prof =>
    obtain ⟨hcommon, -⟩ := hfields
    rw [← hcommon.prof]
    have hsteps : ∀ (prof : BitVec 3) (sbt : BitVec 2), 4 ≤ prof.toNat → Fsm.sLen.stepsToEnd prof sbt = 9 := by
      decide
    exact hsteps prof _ (of_decide_eq_true hwf)

/-- Settles O21: every field step but the last leaves one step fewer of the form's sequence. -/
theorem successTakesTheStepsOfItsForm : Obligations.SuccessTakesTheStepsOfItsForm := by
  intro s t p i hwf hin hexec herr
  have hrun : finishTransaction (s.accept p) = .next t :=
    (fieldStepsRunTheMeaningOfTheHeader s p i hwf hin).trans hexec
  obtain ⟨t', ht', hend⟩ := finishTransaction_endsIn (s := s.accept p) rfl (State.namesStep_accept p s)
  obtain rfl : t' = t := Host.Outcome.next.inj (ht'.symm.trans hrun)
  obtain ⟨n, hn, hlast, hdone⟩ := (State.counted_accept p s).success rfl hrun hend.busy herr
  have hsteps : i.steps = n + 1 := by
    rw [← stepsToEnd_encode hwf, ← hin]
    exact hn
  rw [hsteps]
  exact ⟨hlast, hdone⟩

end Sys2Proof.Machine
end

section
/-! SUPPORT. The first checks of a header: the fixed fields of any, and the common fields of one of a form
(spec/40_decode_and_prefix.md R146 to R156). -/

namespace Sys2Proof.Machine

/-- The steps `S_LEN` to `S_ANC` on the three fixed fields of a header, of a form or of none. -/
def runFixed (sync : BitVec 12) (codec : BitVec 4) (anc : BitVec 1) (s : State) : State :=
  takeField 1 anc ancBody
    (takeField 4 codec codecBody (takeField 12 sync syncBody (takeStep lenStep s.beginTransaction)))

/-- On any captured word the first four field steps are those on its fixed fields. -/
theorem runFixed_fieldRun (h : HeaderWord) (s : State) :
    FieldRun h.bytes s.beginTransaction 4 .sNn 0 17 (runFixed (h.slice 60 12) (h.slice 56 4) (h.slice 55 1) s) :=
  lenStep_fieldRun h.bytes s
    |>.field .sCodec (sync_reads _) (fun _ _ _ hp ⟨hz, _⟩ => ⟨hz, hp⟩) (congrArg _ (memRead_bytes h 0 12))
    |>.field .sAnc (codec_reads _) (fun _ _ _ hp ⟨_, hz, _⟩ => ⟨hz, hp⟩) (congrArg _ (memRead_bytes h 12 4))
    |>.field .sNn (anc_reads _) (fun _ _ _ hp ⟨hz, _⟩ => ⟨hz, hp⟩) (congrArg _ (memRead_bytes h 16 1))

/-- WAIT after an accept whose fixed fields end the transaction. -/
theorem waitDone_accept_of_over {s t : State} {p : Ports}
    (ht : runFixed (p.inData.slice 60 12) (p.inData.slice 56 4) (p.inData.slice 55 1) (s.accept p) = t)
    (hover : t.busy = false) : waitDone (s.accept p) = .next (t.withInput p.inData.bytes) := by
  subst ht
  have hrun := (runFixed_fieldRun p.inData (s.accept p)).ran 13
  rw [State.withInput_accept rfl] at hrun
  rw [waitDone_busy rfl]
  exact hrun.trans (runSteps_over 13 hover)

section
variable {sync : BitVec 12} {codec : BitVec 4} {anc : BitVec 1} {s : State}

/-- Fewer than nine bytes end the transaction before a field is read. -/
theorem runFixed_short (hlen : s.len.toNat < 9) :
    runFixed sync codec anc s = s.beginTransaction.raise .bufferExhausted 0 := by
  have hshort : min s.beginTransaction.len.toNat 9 < 9 := (Nat.min_le_left _ _).trans_lt hlen
  rw [runFixed, takeStep_busy rfl, lenStep_short hshort, takeField_over rfl, takeField_over rfl, takeField_over rfl]

variable (hlen : 9 ≤ s.len.toNat)
include hlen

theorem takeStep_lenStep_full : takeStep lenStep s.beginTransaction = s.beginTransaction.goTo .sSync := by
  rw [takeStep_busy rfl]
  exact lenStep_full (by rw [State.beginTransaction_len]; omega)

theorem runFixed_syncMismatch (hsync : sync ≠ 0xFFF#12) :
    runFixed sync codec anc s =
      { s.beginTransaction with cur := 12, f := { FieldRegs.zero with sync := sync } }.raise .syncMismatch 0 := by
  rw [runFixed, takeStep_lenStep_full hlen, takeField_busy (body := syncBody) rfl, syncBody, if_pos hsync]
  rfl

theorem runFixed_unsupportedCodec (hcodec : codec ≠ 2#4) :
    runFixed 0xFFF#12 codec anc s =
      { s.beginTransaction with cur := 16, f := { FieldRegs.zero with sync := 0xFFF, codec := codec } }.raise
        .unsupportedCodec 12 := by
  rw [runFixed, takeStep_lenStep_full hlen, takeField_busy (body := codecBody) rfl, codecBody, if_pos hcodec]
  rfl

theorem runFixed_reservedBit (hanc : anc ≠ 0#1) :
    runFixed 0xFFF#12 2#4 anc s =
      { s.beginTransaction with cur := 17, f := { FieldRegs.zero with sync := 0xFFF, codec := 2, anc := anc } }.raise
        .reservedBitViolation 16 := by
  rw [runFixed, takeStep_lenStep_full hlen, takeField_busy (body := ancBody) rfl, ancBody, if_pos hanc]
  rfl

theorem runFixed_passes :
    runFixed 0xFFF#12 2#4 0#1 s =
      { s.beginTransaction with cur := 17, f := { FieldRegs.zero with sync := 0xFFF, codec := 2 } }.goTo .sNn := by
  rw [runFixed, takeStep_lenStep_full hlen]
  rfl

/-- A header of a form whose sampling rate resolves gets to `S_DISPATCH`. -/
theorem runPrefix_of_rate {nn prof : BitVec 3} {sr : BitVec 4} {rate : Nat} (hrate : samplingRate sr.toNat = some rate)
    (crc1 : Byte) :
    runPrefix nn prof sr crc1 s = dispatchStep
      { s.beginTransaction with
        fsm := .sDispatch, cur := 35
        f := { FieldRegs.zero with sync := 0xFFF, codec := 2, nn := nn, prof := prof, sr := sr }
        w := { WorkRegs.zero with rate := BitVec.ofNat 32 rate } } := by
  have hfixed : runPrefix nn prof sr crc1 s = takeStep dispatchStep (takeField 8 crc1 (fun _ => crc1Body)
      (takeField 4 sr srBody (takeField 3 prof profBody (takeField 3 nn nnBody (runFixed 0xFFF#12 2#4 0#1 s))))) := rfl
  rw [hfixed, runFixed_passes hlen, takeField_busy (body := srBody) rfl]
  simp only [srBody, hrate]
  rfl

end

theorem dispatchStep_reserved {s : State} {prof : BitVec 3} (hs : s.f.prof = prof) (hprof : 3 ≤ prof.toNat) :
    dispatchStep s = s.raise .invalidCodingProfile 20 := by
  unfold dispatchStep
  rw [hs]
  split
  · omega
  · omega
  · omega
  · rfl

/-- Settles O28: `S_DISPATCH` has no branch for the profiles 3 to 7. -/
theorem reservedProfilesTakeInvalidCodingProfile : Obligations.ReservedProfilesTakeInvalidCodingProfile := by
  intro nn prof sr crc1 rest s rate hlen hrate
  constructor
  · rw [exec, execHdrRsvProf3, runPrefix_of_rate hlen hrate, dispatchStep_reserved (prof := 3#3) rfl (by decide)]
    rfl
  · intro hprof
    rw [exec, execHdrRsvProf4to7, runPrefix_of_rate hlen hrate, dispatchStep_reserved rfl (Nat.le_of_succ_le hprof)]
    rfl

/-- Settles O34: a word that is no header of any form has a fixed field that is wrong, and the first such field ends
the transaction. -/
theorem headersOfNoFormTakeThePrefixError : Obligations.HeadersOfNoFormTakeThePrefixError := by
  intro s p hlen hnone
  have hfull : 9 ≤ (s.accept p).len.toNat := hlen
  split_ifs with hsync hcodec
  · have ht := runFixed_syncMismatch (codec := p.inData.slice 56 4) (anc := p.inData.slice 55 1) hfull hsync
    exact ⟨_, waitDone_accept_of_over ht rfl, ⟨rfl, rfl, rfl, rfl, rfl, rfl, rfl⟩, rfl⟩
  · rw [not_not] at hsync
    have ht := runFixed_unsupportedCodec (anc := p.inData.slice 55 1) hfull hcodec
    rw [← hsync] at ht
    exact ⟨_, waitDone_accept_of_over ht rfl, ⟨rfl, rfl, rfl, rfl, rfl, rfl, rfl⟩, rfl⟩
  · rw [not_not] at hsync hcodec
    have hanc : p.inData.slice 55 1 ≠ 0#1 := fun hanc =>
      hnone _ (HeaderWord.decode_eq_form_iff.mpr ⟨⟨hsync, hcodec, hanc⟩, rfl⟩)
    have ht := runFixed_reservedBit hfull hanc
    rw [← hsync, ← hcodec] at ht
    exact ⟨_, waitDone_accept_of_over ht rfl, ⟨rfl, rfl, rfl, rfl, rfl, rfl, rfl⟩, rfl⟩

/-- Settles O35: `S_LEN` ends the transaction. -/
theorem shortBufferFailsBeforeAnyRead : Obligations.ShortBufferFailsBeforeAnyRead := by
  intro s p hlen
  exact waitDone_accept_of_over (runFixed_short (s := s.accept p) hlen) rfl

end Sys2Proof.Machine
end

section
/-! SUPPORT. The common tail when its checks pass, and the whole meaning of HDR.CH when all of them do
(spec/41_profile0_channel.md R180 to R182, spec/44_tail_and_assembly.md R250 to R254). -/

namespace Sys2Proof.Machine

/-- A table entry that is no placeholder is what the lookup answers. -/
theorem bitrateLookup_of_entry {c : Nat} {i : BitVec 4} {v : Nat} (h : bitrateEntry c i.toNat = some v) (hv : v ≠ 0) :
    bitrateLookup c i = .ok (BitVec.ofNat 32 v) := by
  simp only [bitrateLookup, h, if_neg hv]

theorem brBody_valid {p0 : StreamPos} {i : BitVec 4} {v : Nat} {s : State}
    (h : bitrateEntry s.w.tbl.toNat i.toNat = some v) (hv : v ≠ 0) :
    brBody p0 i s = { s with f.br := i, w.br := BitVec.ofNat 32 v }.goTo .sCrc2 := by
  simp only [brBody, bitrateLookup_of_entry h hv]

theorem runEnd_busy {s : State} (hb : s.busy = true) (crc2 : Byte) :
    runEnd crc2 s = commitStep ((s.advance 8).goTo .sCommit) := by
  rw [runEnd, takeField_busy hb]
  exact takeStep_busy hb

/-- The tail of the profiles 0 and 2: the resolution, then the total bitrate from the table `W_TBL` names, then the
commit. -/
theorem runEnd_of_resolution_bitrate {s : State} {res : BitVec 2} {bits : BitVec 5} {fmt : BitVec 2} {br : BitVec 4}
    {v : Nat} (hb : s.busy = true) (hprof : s.f.prof ≠ 1#3) (hres : resolutionClass res = some (bits, fmt))
    (hentry : bitrateEntry s.w.tbl.toNat br.toNat = some v) (hv : v ≠ 0) (p0 p1 : StreamPos) (crc2 : Byte) :
    runEnd crc2 (takeField 4 br (brBody p1) (takeField 2 res (resBody p0) s)) = commitStep
      { s with
        fsm := .sCommit, cur := s.cur + 2#7 + 4#7 + 8#7, f.res := res, f.br := br
        w.resBits := bits, w.fmt := fmt, w.br := BitVec.ofNat 32 v } := by
  rw [takeField_busy hb, resBody_valid hres, State.advance_f, if_neg hprof, takeField_busy (by exact hb),
    brBody_valid (by exact hentry) hv, runEnd_busy (by exact hb)]
  rfl

/-- Content without objects: its channels are all there is. -/
theorem commitStep_of_noObject {s : State} (h : s.w.obj = 0) :
    commitStep s = { commitStep s with r.totalCh := s.w.ch } := by
  have htotal : s.w.ch + s.w.obj = s.w.ch := by rw [h]; exact BitVec.add_zero _
  simp only [commitStep, htotal]

theorem dispatchStep_channel {s : State} (h : s.f.prof = 0#3) : dispatchStep s = s.goTo .sACfg := by
  rw [dispatchStep, h]
  rfl

/-- Only the configurations below 14 have a fixed mapping (spec/20_memory.md R69). -/
theorem lt_of_fixedChannels {c n : Nat} (h : fixedChannels c = some n) : c < 14 :=
  (List.getElem?_eq_some_iff.mp (Option.join_eq_some_iff.mp h)).1

/-- As a number, what `W_TBL` and `W_LAY` hold of a configuration index. -/
theorem configIndex_eq_ofNat (v : BitVec 7) : configIndex v = BitVec.ofNat 4 v.toNat :=
  (BitVec.ofNat_toNat 4 v).symm

/-- `S_A_CFG` on a configuration of the fixed mapping. -/
theorem aCfgBody_mapped {v : BitVec 7} {n : Nat} (h : fixedChannels v.toNat = some n) (s : State) :
    aCfgBody v s =
      { s with
        f.cfg := v, w.ch := BitVec.ofNat 8 n, w.layV := namedLayout v.toNat
        w.lay := if namedLayout v.toNat then configIndex v else 0
        w.tbl := configIndex v, w.ctype := 1 }.goTo .sRes := by
  simp only [aCfgBody, if_neg (Nat.not_le.mpr (lt_of_fixedChannels h)), h, layoutOf, ctypeChannelOnly]

/-- Settles O23: the common fields, `S_A_CFG` and the tail each pass, and the content has no object to count. -/
theorem hdrChGivesItsResult : Obligations.HdrChGivesItsResult := by
  intro nn sr crc1 cfg res br crc2 pad s rate n v bits fmt hlen hrate hch hres hentry hv
  have htable : bitrateEntry (configIndex cfg).toNat br.toNat = some v := by
    rwa [configIndex_toNat (lt_of_fixedChannels hch)]
  rw [exec, execHdrCh, runPrefix_of_rate hlen hrate, dispatchStep_channel rfl, takeField_busy (body := aCfgBody) rfl,
    aCfgBody_mapped hch, runEnd_of_resolution_bitrate rfl (show 0#3 ≠ 1#3 by decide) hres htable hv,
    commitStep_of_noObject rfl, configIndex_eq_ofNat]
  rfl

end Sys2Proof.Machine
end

section
/-! SUPPORT. The branch steps of profile 1 when their checks pass, and the whole meaning of HDR.OBJ, HDR.CHOBJ and
HDR.RSV.SBT (spec/42_profile1_object.md R200 to R213). -/

namespace Sys2Proof.Machine

theorem dispatchStep_object {s : State} (h : s.f.prof = 1#3) : dispatchStep s = s.goTo .sBSbt := by
  rw [dispatchStep, h]
  rfl

/-- A header of profile 1 whose sampling rate resolves gets to `S_B_SBT`, which reads the sound-bed type. -/
theorem takeField_sbtBody_of_rate {nn : BitVec 3} {sr : BitVec 4} {rate : Nat} {s : State} (hlen : 9 ≤ s.len.toNat)
    (hrate : samplingRate sr.toNat = some rate) (crc1 : Byte) (sbt : BitVec 2) :
    takeField 2 sbt sbtBody (runPrefix nn 1#3 sr crc1 s) = sbtBody sbt
      { s.beginTransaction with
        fsm := .sBSbt, cur := 37
        f := { FieldRegs.zero with sync := 0xFFF, codec := 2, nn := nn, prof := 1, sr := sr }
        w := { WorkRegs.zero with rate := BitVec.ofNat 32 rate } } := by
  rw [runPrefix_of_rate hlen hrate, dispatchStep_object rfl, takeField_busy rfl]
  rfl

theorem sbtBody_reserved {v : BitVec 2} (hv : 2 ≤ v.toNat) (s : State) :
    sbtBody v s = { s with f.sbt := v }.raise .invalidSoundBedType 35 := by
  unfold sbtBody
  split
  · omega
  · omega
  · rfl

/-- Settles O27: `S_B_SBT` has no branch for the selectors 2 and 3. -/
theorem hdrRsvSbtTakesInvalidSoundBedType : Obligations.HdrRsvSbtTakesInvalidSoundBedType := by
  intro nn sr crc1 sbt rest s rate hlen hrate hsbt
  rw [exec, execHdrRsvSbt, takeField_sbtBody_of_rate hlen hrate, sbtBody_reserved hsbt]
  rfl

/-- As a number, what `W_OBJ` holds of an object field. -/
theorem objectCount_eq_ofNat (v : BitVec 7) : objectCount v = BitVec.ofNat 8 (v.toNat + 1) :=
  BitVec.eq_of_toNat_eq (by rw [objectCount_toNat, BitVec.toNat_ofNat, Nat.mod_eq_of_lt (by omega)])

/-- The total bitrate of two table entries, as a number held in 32 bits. -/
theorem objectBitrate_ofNat (bed v : Nat) (obj : BitVec 7) :
    objectBitrate (BitVec.ofNat 32 bed) (BitVec.ofNat 32 v) (objectCount obj) =
      BitVec.ofNat 32 (bed + v * (obj.toNat + 1)) := by
  apply BitVec.eq_of_toNat_eq
  simp only [objectBitrate, objectCount_toNat, BitVec.toNat_ofNat, Nat.add_mod, Nat.mul_mod, Nat.mod_mod]

section
variable {s : State}

/-- `S_B0_OBR` on an entry of the mono table, after the objects of `obj`. -/
theorem b0ObrBody_valid {obj : BitVec 7} {i : BitVec 4} {v : Nat} (hobj : s.w.obj = objectCount obj)
    (h : bitrateEntry 0 i.toNat = some v) (hv : v ≠ 0) :
    b0ObrBody i s =
      { s with
        f.obr := i, w.objBr := BitVec.ofNat 32 v, w.br := BitVec.ofNat 32 (v * (obj.toNat + 1))
        w.ch := 0, w.ctype := 2 }.goTo .sRes := by
  have hbr : objectBitrate 0 (BitVec.ofNat 32 v) (objectCount obj) = BitVec.ofNat 32 (v * (obj.toNat + 1)) :=
    (objectBitrate_ofNat 0 v obj).trans (by rw [Nat.zero_add])
  simp only [b0ObrBody, bitrateLookup_of_entry h hv, ctypeObjectOnly, hobj, hbr]

/-- The steps of object-only content. -/
theorem takeField_objects {obj : BitVec 7} {obr : BitVec 4} {v : Nat} (hb : s.busy = true)
    (h : bitrateEntry 0 obr.toNat = some v) (hv : v ≠ 0) :
    takeField 4 obr b0ObrBody (takeField 7 obj b0ObjBody s) =
      { s with
        fsm := .sRes, cur := s.cur + 7#7 + 4#7, f.obj := obj, f.obr := obr
        w.obj := BitVec.ofNat 8 (obj.toNat + 1), w.objBr := BitVec.ofNat 32 v
        w.br := BitVec.ofNat 32 (v * (obj.toNat + 1)), w.ch := 0, w.ctype := 2 } := by
  rw [takeField_busy hb, takeField_busy (by exact hb), b0ObrBody_valid (obj := obj) rfl h hv, ← objectCount_eq_ofNat]
  rfl

theorem b1CfgBody_inRange {v : BitVec 7} (h : v.toNat < 14) : b1CfgBody v s = { s with f.cfg := v }.goTo .sB1Bbr :=
  if_neg (Nat.not_le.mpr h)

/-- `S_B1_BBR` on an entry of the bed configuration's table. -/
theorem b1BbrBody_valid {i : BitVec 4} {v : Nat} (h : bitrateEntry s.f.cfg.toNat i.toNat = some v) (hv : v ≠ 0) :
    b1BbrBody i s = { s with f.bbr := i, w.bedBr := BitVec.ofNat 32 v }.goTo .sB1Obj := by
  simp only [b1BbrBody, bitrateLookup_of_entry h hv]

/-- The steps of a sound bed. -/
theorem takeField_bed {cfg : BitVec 7} {bbr : BitVec 4} {bed : Nat} (hb : s.busy = true) (hcfg : cfg.toNat < 14)
    (h : bitrateEntry cfg.toNat bbr.toNat = some bed) (hbed : bed ≠ 0) :
    takeField 4 bbr b1BbrBody (takeField 7 cfg b1CfgBody s) =
      { s with
        fsm := .sB1Obj, cur := s.cur + 7#7 + 4#7, f.cfg := cfg, f.bbr := bbr, w.bedBr := BitVec.ofNat 32 bed } := by
  rw [takeField_busy hb, b1CfgBody_inRange hcfg, takeField_busy (by exact hb), b1BbrBody_valid (by exact h) hbed]
  rfl

/-- `S_B1_OBR` on an entry of the mono table, after the objects of `obj`. -/
theorem b1ObrBody_valid {cfg obj : BitVec 7} {i : BitVec 4} {bed v : Nat} (hcfg : s.f.cfg = cfg)
    (hbed : s.w.bedBr = BitVec.ofNat 32 bed) (hobj : s.w.obj = objectCount obj) (h : bitrateEntry 0 i.toNat = some v)
    (hv : v ≠ 0) :
    b1ObrBody i s =
      { s with
        f.obr := i, w.objBr := BitVec.ofNat 32 v, w.ch := BitVec.ofNat 8 ((nmcLookup cfg.toNat).getD 0)
        w.layV := (nmcLookup cfg.toNat).isSome && namedLayout cfg.toNat
        w.lay := if (nmcLookup cfg.toNat).isSome && namedLayout cfg.toNat then BitVec.ofNat 4 cfg.toNat else 0
        w.br := BitVec.ofNat 32 (bed + v * (obj.toNat + 1)), w.ctype := 3 }.goTo .sRes := by
  simp only [b1ObrBody, bitrateLookup_of_entry h hv, layoutOf, ctypeChannelObject, hcfg, hbed, hobj,
    objectBitrate_ofNat, configIndex_eq_ofNat]

/-- The steps of the objects beside a sound bed. -/
theorem takeField_bedObjects {cfg obj : BitVec 7} {obr : BitVec 4} {bed v : Nat} (hb : s.busy = true)
    (hcfg : s.f.cfg = cfg) (hbed : s.w.bedBr = BitVec.ofNat 32 bed) (h : bitrateEntry 0 obr.toNat = some v)
    (hv : v ≠ 0) :
    takeField 4 obr b1ObrBody (takeField 7 obj b1ObjBody s) =
      { s with
        fsm := .sRes, cur := s.cur + 7#7 + 4#7, f.obj := obj, f.obr := obr
        w.obj := BitVec.ofNat 8 (obj.toNat + 1), w.objBr := BitVec.ofNat 32 v
        w.ch := BitVec.ofNat 8 ((nmcLookup cfg.toNat).getD 0)
        w.layV := (nmcLookup cfg.toNat).isSome && namedLayout cfg.toNat
        w.lay := if (nmcLookup cfg.toNat).isSome && namedLayout cfg.toNat then BitVec.ofNat 4 cfg.toNat else 0
        w.br := BitVec.ofNat 32 (bed + v * (obj.toNat + 1)), w.ctype := 3 } := by
  rw [takeField_busy hb, takeField_busy (by exact hb),
    b1ObrBody_valid (obj := obj) (by exact hcfg) (by exact hbed) rfl h hv, ← objectCount_eq_ofNat]
  rfl

/-- The tail of profile 1: the resolution, then the commit, whose total bitrate stands already (R200). -/
theorem runEnd_of_resolution {res : BitVec 2} {bits : BitVec 5} {fmt : BitVec 2} (hb : s.busy = true)
    (hprof : s.f.prof = 1#3) (hres : resolutionClass res = some (bits, fmt)) (p0 : StreamPos) (crc2 : Byte) :
    runEnd crc2 (takeField 2 res (resBody p0) s) = commitStep
      { s with
        fsm := .sCommit, cur := s.cur + 2#7 + 8#7, f.res := res, w.resBits := bits, w.fmt := fmt } := by
  rw [takeField_busy hb, resBody_valid hres, State.advance_f, if_pos hprof, runEnd_busy (by exact hb)]
  rfl

/-- The total of a commit, by what the channels and the objects add up to. -/
theorem commitStep_of_total {n : BitVec 8} (h : s.w.ch + s.w.obj = n) :
    commitStep s = { commitStep s with r.totalCh := n } := by
  rw [← h]
  rfl

end

/-- Settles O24: the common fields, the steps of object-only content and the tail each pass, and the objects are all the
content there is. -/
theorem hdrObjGivesItsResult : Obligations.HdrObjGivesItsResult := by
  intro nn sr crc1 obj obr res crc2 pad s rate v bits fmt hlen hrate hentry hv hres
  have htotal : 0#8 + BitVec.ofNat 8 (obj.toNat + 1) = BitVec.ofNat 8 (obj.toNat + 1) := BitVec.zero_add _
  rw [exec, execHdrObj, takeField_sbtBody_of_rate hlen hrate, takeField_objects rfl hentry hv,
    runEnd_of_resolution rfl rfl hres, commitStep_of_total (by exact htotal)]
  rfl

/-- Settles O25: the common fields, the steps of the bed and of the objects beside it, and the tail each pass. -/
theorem hdrChobjGivesItsResult : Obligations.HdrChobjGivesItsResult := by
  intro nn sr crc1 cfg bbr obj obr res crc2 pad s rate bed v bits fmt hlen hrate hcfg hbed hbed0 hentry hv hres
  have htotal : BitVec.ofNat 8 ((nmcLookup cfg.toNat).getD 0) + BitVec.ofNat 8 (obj.toNat + 1) =
      BitVec.ofNat 8 ((nmcLookup cfg.toNat).getD 0 + obj.toNat + 1) := (BitVec.ofNat_add _ _).symm
  rw [exec, execHdrChobj, takeField_sbtBody_of_rate hlen hrate, takeField_bed rfl hcfg hbed hbed0,
    takeField_bedObjects rfl rfl rfl hentry hv, runEnd_of_resolution rfl rfl hres,
    commitStep_of_total (by exact htotal)]
  rfl

end Sys2Proof.Machine
end

section
/-! SUPPORT. The total bitrate a successful header of profile 1 leaves: a step whose check fails ends the transaction
with `ERR` set, so a success has read the entries it adds up (spec/42_profile1_object.md R205, R211, R215). -/

namespace Sys2Proof.Machine

/-- The transaction goes on and its field and working registers satisfy `P`, unless an error has ended it. -/
def State.UnlessError (P : FieldRegs → WorkRegs → Prop) (s : State) : Prop :=
  (s.busy = true ∧ P s.f s.w) ∨ (s.busy = false ∧ s.err = true)

section
variable {P : FieldRegs → WorkRegs → Prop} {s t : State}

/-- A step that is no commit goes on or takes an error, and every way to pass its checks leads from `P` to `Q`. -/
theorem Fsm.Does.unlessError {x : Fsm} {p0 : StreamPos} {v : BitVec x.width} {Q : FieldRegs → WorkRegs → Prop}
    (hdoes : x.Does p0 v s t) (hx : x ≠ .sCommit) (hb : s.busy = true) (hP : P s.f s.w)
    (hnext : ∀ u z w, P u.f u.w → x.Passes v u z w → Q (x.put v u.f) w) : t.UnlessError Q := by
  cases hdoes with
  | error => exact .inr ⟨rfl, rfl⟩
  | pass z w hpass => exact .inl ⟨hb, hnext s z w hP hpass⟩
  | commit hcommit => exact absurd hcommit hx

/-- A field step of a form's operands. -/
theorem State.UnlessError.field (h : s.UnlessError P) (Q : FieldRegs → WorkRegs → Prop) (x : Fsm) (p0 : StreamPos)
    (v : BitVec x.width) {body : BitVec x.width → State → State} (hdoes : ∀ v u, x.Does p0 v u (body v u))
    (hnext : ∀ u z w, P u.f u.w → x.Passes v u z w → Q (x.put v u.f) w) (hx : x ≠ .sCommit := by decide) :
    (takeField x.width v body s).UnlessError Q := by
  obtain ⟨hb, hP⟩ | hover := h
  · rw [takeField_busy hb]
    exact (hdoes v _).unlessError hx hb hP hnext
  · rw [takeField_over hover.1]
    exact .inr hover

/-- A step of a form that reads no bits. -/
theorem State.UnlessError.noField (h : s.UnlessError P) (Q : FieldRegs → WorkRegs → Prop) (x : Fsm)
    {body : State → State} (hdoes : ∀ v u, x.Does 0 v u (body u))
    (hnext : ∀ v u z w, P u.f u.w → x.Passes v u z w → Q (x.put v u.f) w) (hx : x ≠ .sCommit := by decide) :
    (takeStep body s).UnlessError Q := by
  obtain ⟨hb, hP⟩ | hover := h
  · rw [takeStep_busy hb]
    exact (hdoes 0 s).unlessError hx hb hP (hnext 0)
  · rw [takeStep_over hover.1]
    exact .inr hover

end

/-- Registers of which nothing is known. -/
def anyRegs (_ : FieldRegs) (_ : WorkRegs) : Prop :=
  True

theorem runPrefix_unlessError (nn prof : BitVec 3) (sr : BitVec 4) (crc1 : Byte) (s : State) :
    (runPrefix nn prof sr crc1 s).UnlessError anyRegs :=
  have hbegin : s.beginTransaction.UnlessError anyRegs := .inl ⟨rfl, trivial⟩
  hbegin
    |>.noField anyRegs .sLen lenStep_does (fun _ _ _ _ _ _ => trivial)
    |>.field anyRegs .sSync 0 0xFFF#12 syncBody_does (fun _ _ _ _ _ => trivial)
    |>.field anyRegs .sCodec 0 2#4 codecBody_does (fun _ _ _ _ _ => trivial)
    |>.field anyRegs .sAnc 0 0#1 ancBody_does (fun _ _ _ _ _ => trivial)
    |>.field anyRegs .sNn 0 nn nnBody_does (fun _ _ _ _ _ => trivial)
    |>.field anyRegs .sProf 0 prof profBody_does (fun _ _ _ _ _ => trivial)
    |>.field anyRegs .sSr 0 sr srBody_does (fun _ _ _ _ _ => trivial)
    |>.field anyRegs .sCrc1 0 crc1 (body := fun _ => crc1Body) crc1Body_does (fun _ _ _ _ _ => trivial)
    |>.noField anyRegs .sDispatch dispatchStep_does (fun _ _ _ _ _ _ => trivial)

/-- The total bitrate of a success of profile 1 is what `W_BR` holds at the end of its branch. -/
theorem State.UnlessError.totalBitrate {R : BitVec 32 → Prop} {s t : State} (h : s.UnlessError fun _ w => R w.br)
    {p0 : StreamPos} {res : BitVec 2} {crc2 : Byte} (ht : runEnd crc2 (takeField 2 res (resBody p0) s) = t)
    (herr : t.err = false) : R t.r.totalBitrate := by
  subst ht
  have htail : (takeField 8 crc2 (fun _ => crc2Body) (takeField 2 res (resBody p0) s)).UnlessError fun _ w => R w.br :=
    h
      |>.field (fun _ w => R w.br) .sRes p0 res resBody_does (fun _ _ _ hR ⟨_, _, _, _, hw⟩ => by rwa [hw])
      |>.field _ .sCrc2 0 crc2 (body := fun _ => crc2Body) crc2Body_does (fun _ _ _ hR ⟨_, hw⟩ => by rwa [hw])
  rw [runEnd] at herr ⊢
  obtain ⟨hb, hR⟩ | ⟨hover, hfailed⟩ := htail
  · rw [takeStep_busy hb]
    exact hR
  · rw [takeStep_over hover] at herr
    exact absurd (hfailed.symm.trans herr) nofun

theorem State.err_of_resultValid {t : State} (h : t.resultValid = true) : t.err = false := by
  rw [State.resultValid, Bool.and_eq_true, Bool.not_eq_true'] at h
  exact h.2

/-- `br` is the bitrate of a bed and the one of an object, read from the mono table at `obr`, for each of the objects
of `obj` (R205, R211). -/
def IsObjectTotal (bed : BitVec 32) (obj : BitVec 7) (obr : BitVec 4) (br : BitVec 32) : Prop :=
  ∃ b, bitrateLookup 0 obr = .ok b ∧ br = objectBitrate bed b (objectCount obj)

/-- `br` is the total bitrate of the objects beside the bed of `cfg`, whose bitrate is read at `bbr` (R209, R211). -/
def IsBedTotal (cfg : BitVec 7) (bbr : BitVec 4) (obj : BitVec 7) (obr : BitVec 4) (br : BitVec 32) : Prop :=
  ∃ bed, bitrateLookup cfg.toNat bbr = .ok bed ∧ IsObjectTotal bed obj obr br

theorem hdrObj_totalBitrate {nn : BitVec 3} {sr : BitVec 4} {crc1 crc2 : Byte} {obj : BitVec 7} {obr : BitVec 4}
    {res : BitVec 2} {pad : BitVec 14} {s t : State} (h : exec (.hdrObj nn sr crc1 obj obr res crc2 pad) s = .next t)
    (herr : t.err = false) : IsObjectTotal 0 obj obr t.r.totalBitrate := by
  have hbranch := runPrefix_unlessError nn 1#3 sr crc1 s
    |>.field anyRegs .sBSbt 0 0#2 sbtBody_does (fun _ _ _ _ _ => trivial)
    |>.field (fun _ w => w.obj = objectCount obj) .sB0Obj 0 obj b0ObjBody_does (fun _ _ _ _ ⟨_, hw⟩ => by rw [hw])
    |>.field (fun _ w => IsObjectTotal 0 obj obr w.br) .sB0Obr 0 obr b0ObrBody_does
      (fun _ _ _ hobj ⟨b, hb, _, hw⟩ => ⟨b, hb, by rw [hw, hobj]⟩)
  exact hbranch.totalBitrate (Host.Outcome.next.inj h) herr

theorem hdrChobj_totalBitrate {nn : BitVec 3} {sr : BitVec 4} {crc1 crc2 : Byte} {cfg : BitVec 7} {bbr : BitVec 4}
    {obj : BitVec 7} {obr : BitVec 4} {res : BitVec 2} {pad : BitVec 3} {s t : State}
    (h : exec (.hdrChobj nn sr crc1 cfg bbr obj obr res crc2 pad) s = .next t) (herr : t.err = false) :
    IsBedTotal cfg bbr obj obr t.r.totalBitrate := by
  have hbranch := runPrefix_unlessError nn 1#3 sr crc1 s
    |>.field anyRegs .sBSbt 0 1#2 sbtBody_does (fun _ _ _ _ _ => trivial)
    |>.field (fun f _ => f.cfg = cfg) .sB1Cfg 0 cfg b1CfgBody_does (fun _ _ _ _ _ => rfl)
    |>.field (fun _ w => bitrateLookup cfg.toNat bbr = .ok w.bedBr) .sB1Bbr 0 bbr b1BbrBody_does
      (fun _ _ _ hcfg ⟨_, hb, _, hw⟩ => by rw [hw, ← hb, hcfg])
    |>.field (fun _ w => bitrateLookup cfg.toNat bbr = .ok w.bedBr ∧ w.obj = objectCount obj) .sB1Obj 0 obj
      b1ObjBody_does (fun _ _ _ hbed ⟨_, hw⟩ => by rw [hw]; exact ⟨hbed, rfl⟩)
    |>.field (fun _ w => IsBedTotal cfg bbr obj obr w.br) .sB1Obr 0 obr b1ObrBody_does
      (fun u _ _ ⟨hbed, hobj⟩ ⟨b, _, hb, _, hw⟩ => ⟨u.w.bedBr, hbed, b, hb, by rw [hw, hobj]⟩)
  exact hbranch.totalBitrate (Host.Outcome.next.inj h) herr

/-- A total is exact, and the objects of it end at 24576000 (R215). -/
theorem IsObjectTotal.toNat {bed br : BitVec 32} {obj : BitVec 7} {obr : BitVec 4} {v : Nat}
    (h : IsObjectTotal bed obj obr br) (hbed : bed.toNat ≤ 896000) (hv : bitrateEntry 0 obr.toNat = some v) :
    br.toNat = bed.toNat + v * (obj.toNat + 1) ∧ v * (obj.toNat + 1) ≤ 24576000 := by
  obtain ⟨b, hb, rfl⟩ := h
  obtain ⟨hentry, hb0⟩ := bitrateLookup_ok hb
  obtain rfl : b.toNat = v := Option.some.inj (hentry.symm.trans hv)
  have hobjects : b.toNat * (obj.toNat + 1) ≤ 192000 * 128 := Nat.mul_le_mul (bitrateEntry_mono hentry hb0) obj.isLt
  rw [objectBitrate, objectCount_toNat, BitVec.toNat_ofNat, Nat.mod_eq_of_lt (by omega)]
  exact ⟨rfl, hobjects⟩

/-- Settles O48: a success adds up the two entries it has read, and the tables bound them. -/
theorem objectBitratesAreExact : Obligations.ObjectBitratesAreExact := by
  intro nn sr crc1 crc2 cfg bbr obj obr res pad pad' s t bed v hvalid hv
  have herr := State.err_of_resultValid hvalid
  constructor
  · intro hbed hexec
    obtain ⟨bedBr, hlookup, htotal⟩ := hdrChobj_totalBitrate hexec herr
    obtain ⟨hentry, hbed0⟩ := bitrateLookup_ok hlookup
    obtain rfl : bedBr.toNat = bed := Option.some.inj (hentry.symm.trans hbed)
    have hbedMax := (bitrateEntry_range hentry hbed0).2
    obtain ⟨hexact, hmax⟩ := htotal.toNat hbedMax hv
    exact ⟨hexact, by omega⟩
  · intro hexec
    obtain ⟨hexact, hmax⟩ := (hdrObj_totalBitrate hexec herr).toNat (Nat.zero_le _) hv
    rw [hexact.trans (Nat.zero_add _)]
    exact ⟨rfl, hmax⟩

end Sys2Proof.Machine
end

section
/-! SUPPORT. The branch step of profile 2 when its check passes, and the whole meaning of HDR.HOA
(spec/43_profile2_ambisonic.md R230, R231). -/

namespace Sys2Proof.Machine

theorem dispatchStep_ambisonic {s : State} (h : s.f.prof = 2#3) : dispatchStep s = s.goTo .sCOrd := by
  rw [dispatchStep, h]
  rfl

theorem ambisonicOrder_toNat (v : BitVec 4) : (ambisonicOrder v).toNat = v.toNat + 1 := by
  unfold ambisonicOrder
  bv_omega

/-- As a number, what `W_ORDER` holds of an order field. -/
theorem ambisonicOrder_eq_ofNat (v : BitVec 4) : ambisonicOrder v = BitVec.ofNat 5 (v.toNat + 1) := by
  rw [← ambisonicOrder_toNat, BitVec.ofNat_toNat, BitVec.setWidth_eq]

/-- As a number, what `W_CH` holds of an order field. -/
theorem ambisonicChannels_eq_ofNat (v : BitVec 4) :
    ambisonicChannels (ambisonicOrder v) = BitVec.ofNat 8 ((v.toNat + 2) * (v.toNat + 2)) := by
  rw [ambisonicChannels, ambisonicOrder_toNat]

/-- As a number, what `W_TBL` holds of an order field. -/
theorem ambisonicTable_eq_ofNat (v : BitVec 4) : ambisonicTable (ambisonicOrder v) = BitVec.ofNat 4 (11 + v.toNat) := by
  rw [ambisonicTable, ambisonicOrder_toNat, Nat.add_comm v.toNat, ← Nat.add_assoc]

/-- `S_C_ORD` on the field of an order 1 to 3. -/
theorem ordBody_valid {v : BitVec 4} (hv : v.toNat ≤ 2) (s : State) :
    ordBody v s =
      { s with
        f.ord := v, w.order := BitVec.ofNat 5 (v.toNat + 1)
        w.ch := BitVec.ofNat 8 ((v.toNat + 2) * (v.toNat + 2)), w.tbl := BitVec.ofNat 4 (11 + v.toNat)
        w.ctype := 4 }.goTo .sRes := by
  have horder : ambisonicOrder v = 1#5 ∨ ambisonicOrder v = 2#5 ∨ ambisonicOrder v = 3#5 := by
    have := ambisonicOrder_toNat v
    bv_omega
  simp only [ordBody, if_pos horder, ambisonicChannels_eq_ofNat, ambisonicTable_eq_ofNat, ctypeAmbisonic]
  rw [ambisonicOrder_eq_ofNat]

/-- Settles O26: the common fields, `S_C_ORD` and the tail each pass, and the content has no object to count. -/
theorem hdrHoaGivesItsResult : Obligations.HdrHoaGivesItsResult := by
  intro nn sr crc1 ord res br crc2 pad s rate v bits fmt hlen hrate hord hres hentry hv
  have htable : bitrateEntry (BitVec.ofNat 4 (11 + ord.toNat)).toNat br.toNat = some v := by
    rwa [BitVec.toNat_ofNat, Nat.mod_eq_of_lt (by omega)]
  rw [exec, execHdrHoa, runPrefix_of_rate hlen hrate, dispatchStep_ambisonic rfl, takeField_busy (body := ordBody) rfl,
    ordBody_valid hord, runEnd_of_resolution_bitrate rfl (show 2#3 ≠ 1#3 by decide) hres htable hv,
    commitStep_of_noObject rfl]
  rfl

end Sys2Proof.Machine
end

section
/-! SUPPORT. Which configurations have no bitrate table (spec/20_memory.md R67), and the lookup's two checks on them
(spec/44_tail_and_assembly.md R250). -/

namespace Sys2Proof.Machine

/-- Of the fourteen configurations, 10.2 and 22.2 alone have no bitrate table, whatever the index. -/
theorem bitrateEntry_eq_none_iff {c : Nat} (hc : c < 14) (i : Nat) : bitrateEntry c i = none ↔ c = 4 ∨ c = 5 := by
  have hslots : ∀ c < 14, romBr[c]?.join = none ↔ c = 4 ∨ c = 5 := by decide
  rw [bitrateEntry, Option.map_eq_none_iff]
  exact hslots c hc

/-- A configuration with an entry, a placeholder or not, is neither 10.2 nor 22.2. -/
theorem ne_tableless_of_bitrateEntry {c i v : Nat} (hc : c < 14) (h : bitrateEntry c i = some v) : c ≠ 4 ∧ c ≠ 5 :=
  not_or.mp ((bitrateEntry_eq_none_iff hc i).not.mp (Option.ne_none_iff_exists'.mpr ⟨v, h⟩))

/-- Settles O52: a lookup's three answers are those of the configuration's entry: none, a placeholder, or a bitrate,
which 32 bits hold without loss. -/
theorem bitrateLookupChecksTableThenEntry : Obligations.BitrateLookupChecksTableThenEntry := by
  intro c i hc
  obtain ⟨hnone, herr⟩ | ⟨hzero, herr⟩ | ⟨v, hv, hentry, hok⟩ := bitrateLookup_cases c i
  · exact .inl ⟨(bitrateEntry_eq_none_iff hc _).mp hnone, herr⟩
  · obtain ⟨h4, h5⟩ := ne_tableless_of_bitrateEntry hc hzero
    exact .inr ⟨h4, h5, 0, hzero, .inl ⟨rfl, herr⟩⟩
  · obtain ⟨h4, h5⟩ := ne_tableless_of_bitrateEntry hc hentry
    have hvalue : (BitVec.ofNat 32 v).toNat = v :=
      Option.some.inj ((bitrateLookup_ok hok).1.symm.trans hentry)
    exact .inr ⟨h4, h5, v, hentry, .inr ⟨hv, _, hok, hvalue⟩⟩

end Sys2Proof.Machine
end

section
/-! SUPPORT. Which error a header reports: its checks as a list in the order of R310, gathered field step by field step
(spec/60_exceptions.md R300 to R303, R310). -/

namespace Sys2Proof.Machine

/-- A check of a header: when it fails, the error it takes and the offset it reports (spec/60_exceptions.md R300). -/
structure HeaderCheck where
  fails : Prop
  error : HeaderError
  pos : StreamPos

/-- The transaction has ended in the error of the first of these checks that fails; `Q` holds when none does. -/
def State.Reports (t : State) : List HeaderCheck → (State → Prop) → Prop
  | [], Q => Q t
  | c :: cs, Q => (c.fails → t.Failed c.error.code c.pos) ∧ (¬c.fails → t.Reports cs Q)

/-- The transaction goes on, no error is recorded, no result is loaded, and its field and working registers satisfy
`P`. -/
def State.OngoingWith (P : FieldRegs → WorkRegs → Prop) (s : State) : Prop :=
  s.busy = true ∧ s.errCode = 0 ∧ s.errPos = 0 ∧ s.r = ResultRegs.zero ∧ P s.f s.w

section
variable {s t : State} {P Q : FieldRegs → WorkRegs → Prop} {R R' : State → Prop} {cs ds : List HeaderCheck}

theorem State.OngoingWith.busy (h : s.OngoingWith P) : s.busy = true :=
  h.1

theorem State.OngoingWith.regs (h : s.OngoingWith P) : P s.f s.w := by
  obtain ⟨-, -, -, -, hP⟩ := h
  exact hP

/-- A step that passes its checks writes registers and goes on. -/
theorem State.OngoingWith.goTo (h : s.OngoingWith P) {x : Fsm} {f : FieldRegs} {w : WorkRegs} (hQ : Q f w) :
    ({ s with f := f, w := w }.goTo x).OngoingWith Q := by
  obtain ⟨hbusy, hcode, hpos, hr, -⟩ := h
  exact ⟨hbusy, hcode, hpos, hr, hQ⟩

/-- An error taken before a result is loaded leaves none (R301, R303). -/
theorem State.OngoingWith.raise (h : s.OngoingWith P) {f : FieldRegs} (e : HeaderError) (pos : StreamPos) :
    ({ s with f := f }.raise e pos).Failed e.code pos := by
  obtain ⟨-, -, -, hr, -⟩ := h
  exact ⟨rfl, rfl, rfl, rfl, rfl, rfl, hr⟩

theorem State.Failed.over {code : BitVec 4} {pos : StreamPos} (h : t.Failed code pos) : t.busy = false :=
  h.2.1

/-- What comes after the checks leaves a transaction that one of them has ended as it is. -/
theorem State.Reports.andThen {g : State → State} (h : t.Reports cs R) (hover : ∀ u : State, u.busy = false → g u = u)
    (hnext : ∀ u, R u → (g u).Reports ds R') : (g t).Reports (cs ++ ds) R' := by
  induction cs with
  | nil => exact hnext t h
  | cons c cs ih =>
    obtain ⟨hfails, hpasses⟩ := h
    refine ⟨fun hc => ?_, fun hc => ih (hpasses hc)⟩
    rw [hover t (hfails hc).over]
    exact hfails hc

/-- The checks of a field step come after those of the steps before it. -/
theorem State.Reports.field {w : Nat} {v : BitVec w} {body : BitVec w → State → State}
    (h : t.Reports cs (State.OngoingWith P)) (hnext : ∀ u : State, u.OngoingWith P → (body v u).Reports ds R) :
    (takeField w v body t).Reports (cs ++ ds) R :=
  h.andThen (fun _ => takeField_over) fun u hu => by
    rw [takeField_busy hu.busy]
    exact hnext (u.advance w) hu

/-- A step without a check adds none. -/
theorem State.Reports.andThenOnly {g : State → State} (h : t.Reports cs R)
    (hover : ∀ u : State, u.busy = false → g u = u) (hnext : ∀ u, R u → R' (g u)) : (g t).Reports cs R' := by
  have hall : (g t).Reports (cs ++ []) R' := h.andThen hover hnext
  rwa [List.append_nil] at hall

/-- A field step without a check. -/
theorem State.Reports.pass (h : t.Reports cs (State.OngoingWith P)) (Q : FieldRegs → WorkRegs → Prop) {w : Nat}
    (v : BitVec w) (body : BitVec w → State → State) (hnext : ∀ u : State, u.OngoingWith P → (body v u).OngoingWith Q) :
    (takeField w v body t).Reports cs (State.OngoingWith Q) :=
  h.andThenOnly (fun _ => takeField_over) fun u hu => by
    rw [takeField_busy hu.busy]
    exact hnext (u.advance w) hu

/-- The steps after the last check end the transaction in a success. -/
theorem State.Reports.finish (h : t.Reports cs (State.OngoingWith P)) (crc2 : Byte) :
    (runEnd crc2 t).Reports cs State.Succeeded := by
  refine h.andThenOnly (fun u hu => ?_) fun u hu => ?_
  · rw [runEnd, takeField_over hu, takeStep_over hu]
  · obtain ⟨hbusy, hcode, hpos, -, -⟩ := hu
    rw [runEnd_busy hbusy]
    exact ⟨rfl, rfl, rfl, hcode, hpos⟩

/-! ### The common fields -/

theorem runFixed_reports (s : State) :
    (runFixed 0xFFF#12 2#4 0#1 s).Reports [⟨s.len.toNat < 9, .bufferExhausted, 0⟩] (State.OngoingWith anyRegs) := by
  refine ⟨fun hshort => ?_, fun hfull => ?_⟩
  · rw [runFixed_short hshort]
    exact ⟨rfl, rfl, rfl, rfl, rfl, rfl, rfl⟩
  · rw [runFixed_passes (Nat.le_of_not_lt hfull)]
    exact ⟨rfl, rfl, rfl, rfl, trivial⟩

/-- The registers of a header of this coding profile. -/
def InProfile (prof : BitVec 3) (f : FieldRegs) (_ : WorkRegs) : Prop :=
  f.prof = prof

theorem samplingRate_eq_none_iff (i : Nat) : samplingRate i = none ↔ 9 ≤ i :=
  List.getElem?_eq_none_iff

theorem srBody_reports {prof : BitVec 3} (h : s.OngoingWith (InProfile prof)) (v : BitVec 4) :
    (srBody v s).Reports [⟨9 ≤ v.toNat, .invalidSamplingRateIndex, 23⟩] (State.OngoingWith (InProfile prof)) := by
  rw [srBody]
  cases hrate : samplingRate v.toNat with
  | none => exact ⟨fun _ => h.raise _ _, absurd ((samplingRate_eq_none_iff _).mp hrate)⟩
  | some rate =>
    have hlt := (samplingRate_some hrate).1
    exact ⟨fun hv => absurd hlt (Nat.not_lt.mpr hv), fun _ => h.goTo (Q := InProfile prof) h.regs⟩

/-- The checks every form has come before those of `S_DISPATCH` and after. -/
theorem runPrefix_reports (nn : BitVec 3) {prof : BitVec 3} (sr : BitVec 4) (crc1 : Byte) (s : State)
    (hdispatch : ∀ u : State, u.OngoingWith (InProfile prof) → (dispatchStep u).Reports ds R) :
    (runPrefix nn prof sr crc1 s).Reports
      (⟨s.len.toNat < 9, .bufferExhausted, 0⟩ :: ⟨9 ≤ sr.toNat, .invalidSamplingRateIndex, 23⟩ :: ds) R :=
  runFixed_reports s
    |>.pass anyRegs nn nnBody (fun _ hu => hu.goTo trivial)
    |>.pass (InProfile prof) prof profBody (fun _ hu => hu.goTo rfl)
    |>.field (fun _ hu => srBody_reports hu sr)
    |>.pass (InProfile prof) crc1 (fun _ => crc1Body) (fun _ hu => hu)
    |>.andThen (fun _ => takeStep_over) fun u hu => by
      rw [takeStep_busy hu.busy]
      exact hdispatch u hu

theorem dispatchStep_branch (h : s.f.prof.toNat ≤ 2) : ∃ x, dispatchStep s = s.goTo x := by
  obtain h0 | h1 | h2 : s.f.prof = 0#3 ∨ s.f.prof = 1#3 ∨ s.f.prof = 2#3 := by bv_omega
  · exact ⟨_, dispatchStep_channel h0⟩
  · exact ⟨_, dispatchStep_object h1⟩
  · exact ⟨_, dispatchStep_ambisonic h2⟩

/-- The checks of a header whose coding profile has a branch, up to that branch. -/
theorem runPrefix_branch_reports (nn : BitVec 3) {prof : BitVec 3} (hprof : prof.toNat ≤ 2) (sr : BitVec 4)
    (crc1 : Byte) (s : State) :
    (runPrefix nn prof sr crc1 s).Reports
      [⟨s.len.toNat < 9, .bufferExhausted, 0⟩, ⟨9 ≤ sr.toNat, .invalidSamplingRateIndex, 23⟩]
      (State.OngoingWith anyRegs) := by
  refine runPrefix_reports nn sr crc1 s fun u hu => ?_
  obtain ⟨x, hx⟩ := dispatchStep_branch (hu.regs.symm ▸ hprof)
  rw [hx]
  exact hu.goTo (Q := anyRegs) trivial

end
end Sys2Proof.Machine
end

section
/-! SUPPORT. The checks of the branch steps and of the tail (spec/41_profile0_channel.md R181,
spec/42_profile1_object.md R205 to R211, spec/43_profile2_ambisonic.md R231, spec/44_tail_and_assembly.md R250 to
R252). -/

namespace Sys2Proof.Machine

/-- The two checks of a bitrate lookup, its index read at `pos` (spec/44_tail_and_assembly.md R250). -/
def lookupChecks (c : Nat) (i : BitVec 4) (pos : StreamPos) : List HeaderCheck :=
  [⟨bitrateEntry c i.toNat = none, .missingBitrateTable, pos⟩,
    ⟨bitrateEntry c i.toNat = some 0, .invalidBitrateIndex, pos⟩]

/-- A step that takes its lookup's error, or goes on with the bitrate it answers. -/
theorem reports_lookupChecks {s t : State} {P : FieldRegs → WorkRegs → Prop} {R : State → Prop} {c : Nat} {i : BitVec 4}
    {pos : StreamPos} {f : FieldRegs} (h : s.OngoingWith P)
    (herror : ∀ e, bitrateLookup c i = .error e → t = { s with f := f }.raise e pos)
    (hok : ∀ b, bitrateLookup c i = .ok b → R t) : t.Reports (lookupChecks c i pos) R := by
  obtain ⟨hentry, hlookup⟩ | ⟨hentry, hlookup⟩ | ⟨v, hv, hentry, hlookup⟩ := bitrateLookup_cases c i
  · rw [herror _ hlookup]
    exact ⟨fun _ => h.raise _ _, absurd hentry⟩
  · rw [herror _ hlookup]
    exact ⟨fun hnone => absurd (hnone.symm.trans hentry) nofun, fun _ => ⟨fun _ => h.raise _ _, absurd hentry⟩⟩
  · have hnone : bitrateEntry c i.toNat ≠ none := fun hnone => nomatch hnone.symm.trans hentry
    have hzero : bitrateEntry c i.toNat ≠ some 0 := fun hzero => hv (Option.some.inj (hentry.symm.trans hzero))
    exact ⟨fun hc => absurd hc hnone, fun _ => ⟨fun hc => absurd hc hzero, fun _ => hok _ hlookup⟩⟩

/-- The lookups of a configuration below 14: only 10.2 and 22.2 have no table. -/
theorem State.Reports.table {t : State} {R : State → Prop} {c : Nat} {i : BitVec 4} {pos : StreamPos}
    (h : t.Reports (lookupChecks c i pos) R) (hc : c < 14) :
    t.Reports
      [⟨c = 4 ∨ c = 5, .missingBitrateTable, pos⟩, ⟨bitrateEntry c i.toNat = some 0, .invalidBitrateIndex, pos⟩] R := by
  rwa [lookupChecks, bitrateEntry_eq_none_iff hc] at h

/-- The mono table has placeholders from index 12 on (spec/20_memory.md R67). -/
theorem bitrateEntry_mono_eq_zero_iff (i : BitVec 4) : bitrateEntry 0 i.toNat = some 0 ↔ 12 ≤ i.toNat := by
  revert i
  decide

/-- The lookups in the mono table, which price an object. -/
theorem State.Reports.monoEntry {t : State} {R : State → Prop} {i : BitVec 4} {pos : StreamPos}
    (h : t.Reports (lookupChecks 0 i pos) R) : t.Reports [⟨12 ≤ i.toNat, .invalidBitrateIndex, pos⟩] R := by
  have hentry := (h.table (by decide)).2 (show ¬(0 = 4 ∨ 0 = 5) by decide)
  rwa [bitrateEntry_mono_eq_zero_iff] at hentry

theorem resolutionClass_eq_none_iff (v : BitVec 2) : resolutionClass v = none ↔ v = 3 := by
  revert v
  decide

/-- Below 14 only 10.2 and the ambisonic configurations have no fixed mapping (spec/20_memory.md R69). -/
theorem fixedChannels_eq_none_iff : ∀ c < 14, fixedChannels c = none ↔ c = 4 ∨ 11 ≤ c := by
  decide

/-- `W_TBL` names the configuration `c` for the total bitrate, below 14 and not 10.2, as both `S_A_CFG` and `S_C_ORD`
leave it. -/
def ReadsTable (c : Nat) (_ : FieldRegs) (w : WorkRegs) : Prop :=
  w.tbl.toNat = c ∧ c < 14 ∧ c ≠ 4

/-- `F_CFG` holds the configuration of a bed, below 14. -/
def HasBed (cfg : BitVec 7) (f : FieldRegs) (_ : WorkRegs) : Prop :=
  f.cfg = cfg ∧ cfg.toNat < 14

section
variable {s : State} {P : FieldRegs → WorkRegs → Prop} (h : s.OngoingWith P)
include h

theorem aCfgBody_reports (v : BitVec 7) :
    (aCfgBody v s).Reports
      [⟨14 ≤ v.toNat, .invalidChannelConfig, 35⟩, ⟨v.toNat = 4 ∨ 11 ≤ v.toNat, .unmappedChannelConfig, 35⟩]
      (State.OngoingWith (ReadsTable v.toNat)) := by
  refine ⟨fun hout => ?_, fun hin => ?_⟩
  · rw [aCfgBody, if_pos hout]
    exact h.raise _ _
  · have hlt := Nat.lt_of_not_le hin
    refine ⟨fun hundefined => ?_, fun hdefined => ?_⟩
    · simp only [aCfgBody, if_neg hin, (fixedChannels_eq_none_iff _ hlt).mpr hundefined]
      exact h.raise _ _
    · obtain ⟨n, hn⟩ := Option.ne_none_iff_exists'.mp (mt (fixedChannels_eq_none_iff _ hlt).mp hdefined)
      rw [aCfgBody_mapped hn]
      exact h.goTo (Q := ReadsTable v.toNat) ⟨configIndex_toNat hlt, hlt, (not_or.mp hdefined).1⟩

theorem b0ObrBody_reports (v : BitVec 4) :
    (b0ObrBody v s).Reports [⟨12 ≤ v.toNat, .invalidBitrateIndex, 44⟩] (State.OngoingWith anyRegs) := by
  refine (reports_lookupChecks (f := { s.f with obr := v }) h (fun e he => ?_) fun b hb => ?_).monoEntry
  · simp only [b0ObrBody, he]
  · simp only [b0ObrBody, hb]
    exact h.goTo trivial

theorem b1CfgBody_reports (v : BitVec 7) :
    (b1CfgBody v s).Reports [⟨14 ≤ v.toNat, .invalidChannelConfig, 37⟩] (State.OngoingWith (HasBed v)) := by
  refine ⟨fun hout => ?_, fun hin => ?_⟩
  · rw [b1CfgBody, if_pos hout]
    exact h.raise _ _
  · have hlt := Nat.lt_of_not_le hin
    rw [b1CfgBody_inRange hlt]
    exact h.goTo (Q := HasBed v) ⟨rfl, hlt⟩

theorem b1ObrBody_reports (v : BitVec 4) :
    (b1ObrBody v s).Reports [⟨12 ≤ v.toNat, .invalidBitrateIndex, 55⟩] (State.OngoingWith anyRegs) := by
  refine (reports_lookupChecks (f := { s.f with obr := v }) h (fun e he => ?_) fun b hb => ?_).monoEntry
  · simp only [b1ObrBody, he]
  · simp only [b1ObrBody, hb]
    exact h.goTo trivial

theorem ordBody_reports (v : BitVec 4) :
    (ordBody v s).Reports [⟨3 ≤ v.toNat, .invalidAmbisonicOrder, 35⟩]
      (State.OngoingWith (ReadsTable (11 + v.toNat))) := by
  refine ⟨fun hout => ?_, fun hin => ?_⟩
  · have horder : ¬(ambisonicOrder v = 1#5 ∨ ambisonicOrder v = 2#5 ∨ ambisonicOrder v = 3#5) := by
      have := ambisonicOrder_toNat v
      bv_omega
    simp only [ordBody, if_neg horder]
    exact h.raise _ _
  · have htable : (BitVec.ofNat 4 (11 + v.toNat)).toNat = 11 + v.toNat := Nat.mod_eq_of_lt (by omega)
    rw [ordBody_valid (by omega)]
    exact h.goTo (Q := ReadsTable (11 + v.toNat)) ⟨htable, by omega, by omega⟩

/-- `S_RES` writes no register that the steps after it look at. -/
theorem resBody_reports (p0 : StreamPos) (v : BitVec 2)
    (hkeep : ∀ f w bits fmt, P f w → P { f with res := v } { w with resBits := bits, fmt := fmt }) :
    (resBody p0 v s).Reports [⟨v = 3, .invalidResolutionIndex, p0⟩] (State.OngoingWith P) := by
  cases hclass : resolutionClass v with
  | none =>
    rw [resBody_invalid hclass]
    exact ⟨fun _ => h.raise _ _, absurd ((resolutionClass_eq_none_iff v).mp hclass)⟩
  | some c =>
    rw [resBody_valid hclass]
    exact ⟨fun hv => absurd (hclass.symm.trans ((resolutionClass_eq_none_iff v).mpr hv)) nofun,
      fun _ => h.goTo (Q := P) (hkeep _ _ c.1 c.2 h.regs)⟩

end

theorem b1BbrBody_reports {s : State} {cfg : BitVec 7} (h : s.OngoingWith (HasBed cfg)) (v : BitVec 4) :
    (b1BbrBody v s).Reports
      [⟨cfg.toNat = 4 ∨ cfg.toNat = 5, .missingBitrateTable, 44⟩,
        ⟨bitrateEntry cfg.toNat v.toNat = some 0, .invalidBitrateIndex, 44⟩] (State.OngoingWith anyRegs) := by
  obtain ⟨hcfg, hlt⟩ := h.regs
  refine (reports_lookupChecks (f := { s.f with bbr := v }) h (fun e he => ?_) fun b hb => ?_).table hlt
  · simp only [b1BbrBody, hcfg, he]
  · simp only [b1BbrBody, hcfg, hb]
    exact h.goTo trivial

theorem brBody_reports {s : State} {c : Nat} (h : s.OngoingWith (ReadsTable c)) (p0 : StreamPos) (v : BitVec 4) :
    (brBody p0 v s).Reports
      [⟨c = 5, .missingBitrateTable, p0⟩, ⟨bitrateEntry c v.toNat = some 0, .invalidBitrateIndex, p0⟩]
      (State.OngoingWith anyRegs) := by
  obtain ⟨htbl, hlt, hne⟩ := h.regs
  rw [← or_iff_right (b := c = 5) hne]
  refine (reports_lookupChecks (f := { s.f with br := v }) h (fun e he => ?_) fun b hb => ?_).table hlt
  · simp only [brBody, htbl, he]
  · simp only [brBody, htbl, hb]
    exact h.goTo trivial

end Sys2Proof.Machine
end

section
/-! SUPPORT. The forms: each is its field steps, whose checks in turn are the form's list of R310. -/

namespace Sys2Proof.Machine

/-- Settles O29: `S_A_CFG` checks the configuration, the tail the resolution and the table `S_A_CFG` has named. -/
theorem hdrChReportsTheFirstError : Obligations.HdrChReportsTheFirstError := by
  intro nn sr crc1 cfg res br crc2 pad s
  have hreports := runPrefix_branch_reports nn (prof := 0#3) (by decide) sr crc1 s
    |>.field (fun _ hu => aCfgBody_reports hu cfg)
    |>.field (fun _ hu => resBody_reports hu 42 res fun _ _ _ _ hP => hP)
    |>.field (fun _ hu => brBody_reports hu 44 br)
    |>.finish crc2
  refine ⟨_, rfl, ?_⟩
  simp only [ite_prop_iff_and]
  exact hreports

/-- Settles O30: the sound-bed type and the objects pass, so the mono table and the resolution are what is checked. -/
theorem hdrObjReportsTheFirstError : Obligations.HdrObjReportsTheFirstError := by
  intro nn sr crc1 obj obr res crc2 pad s
  have hreports := runPrefix_branch_reports nn (prof := 1#3) (by decide) sr crc1 s
    |>.pass anyRegs 0#2 sbtBody (fun _ hu => hu.goTo trivial)
    |>.pass anyRegs obj b0ObjBody (fun _ hu => hu.goTo trivial)
    |>.field (fun _ hu => b0ObrBody_reports hu obr)
    |>.field (fun _ hu => resBody_reports hu 48 res fun _ _ _ _ hP => hP)
    |>.finish crc2
  refine ⟨_, rfl, ?_⟩
  simp only [ite_prop_iff_and]
  exact hreports

/-- Settles O31: the bed's range and table entry are checked, then the mono table and the resolution. -/
theorem hdrChobjReportsTheFirstError : Obligations.HdrChobjReportsTheFirstError := by
  intro nn sr crc1 cfg bbr obj obr res crc2 pad s
  have hreports := runPrefix_branch_reports nn (prof := 1#3) (by decide) sr crc1 s
    |>.pass anyRegs 1#2 sbtBody (fun _ hu => hu.goTo trivial)
    |>.field (fun _ hu => b1CfgBody_reports hu cfg)
    |>.field (fun _ hu => b1BbrBody_reports hu bbr)
    |>.pass anyRegs obj b1ObjBody (fun _ hu => hu.goTo trivial)
    |>.field (fun _ hu => b1ObrBody_reports hu obr)
    |>.field (fun _ hu => resBody_reports hu 59 res fun _ _ _ _ hP => hP)
    |>.finish crc2
  refine ⟨_, rfl, ?_⟩
  simp only [ite_prop_iff_and]
  exact hreports

/-- Settles O32: the order and the resolution are checked, then the table entry; each of the three orders has
a table. -/
theorem hdrHoaReportsTheFirstError : Obligations.HdrHoaReportsTheFirstError := by
  intro nn sr crc1 ord res br crc2 pad s
  have hreports := runPrefix_branch_reports nn (prof := 2#3) (by decide) sr crc1 s
    |>.field (fun _ hu => ordBody_reports hu ord)
    |>.field (fun _ hu => resBody_reports hu 39 res fun _ _ _ _ hP => hP)
    |>.field (fun _ hu => (brBody_reports hu 41 br).2 (show ¬11 + ord.toNat = 5 by omega))
    |>.finish crc2
  refine ⟨_, rfl, ?_⟩
  simp only [ite_prop_iff_and]
  exact hreports

/-- A reserved coding profile has no branch (R155, R156). -/
theorem runPrefix_reserved_reports (nn : BitVec 3) {prof : BitVec 3} (hprof : 3 ≤ prof.toNat) (sr : BitVec 4)
    (crc1 : Byte) (s : State) :
    (runPrefix nn prof sr crc1 s).Reports
      [⟨s.len.toNat < 9, .bufferExhausted, 0⟩, ⟨9 ≤ sr.toNat, .invalidSamplingRateIndex, 23⟩]
      (State.Failed · 6 20) :=
  runPrefix_reports nn sr crc1 s fun _ hu => by
    rw [dispatchStep_reserved hu.regs hprof]
    exact hu.raise _ _

/-- Settles O33: the common checks pass or fail as in any form, and then `S_DISPATCH` or `S_B_SBT` has no branch. -/
theorem reservedFormsReportTheFirstError : Obligations.ReservedFormsReportTheFirstError := by
  intro nn sr crc1 i s hwf
  simp only [ite_prop_iff_and]
  refine ⟨?_, ?_⟩
  · rintro (⟨rest, rfl⟩ | ⟨prof, rest, rfl⟩)
    · exact ⟨_, rfl, runPrefix_reserved_reports nn (prof := 3#3) (by decide) sr crc1 s⟩
    · have hprof : 4 ≤ prof.toNat := of_decide_eq_true hwf
      exact ⟨_, rfl, runPrefix_reserved_reports nn (Nat.le_of_succ_le hprof) sr crc1 s⟩
  · rintro ⟨sbt, rest, rfl⟩
    have hsbt : 2 ≤ sbt.toNat := of_decide_eq_true hwf
    exact ⟨_, rfl, runPrefix_branch_reports nn (prof := 1#3) (by decide) sr crc1 s
      |>.field (v := sbt) (body := sbtBody) (ds := []) (R := (State.Failed · 9 35)) fun u hu => by
        rw [sbtBody_reserved hsbt]
        exact hu.raise _ _⟩

end Sys2Proof.Machine
end

section
/-! SUPPORT. Reset edges, edges that end a transaction, and the edges that change an output
(spec/70_reset_and_hazards.md R340, R353, R354). -/

namespace Sys2Proof.Machine

/-- A reset wins over the stall, the field step and a start (R340). -/
theorem clockEdge_reset {p : Ports} (stall : Bool) (s : State) (hrst : p.rst = true) :
    clockEdge p stall s = .next s.afterReset :=
  if_pos hrst

/-- The ports show the flags, the error registers and the results, and nothing else (spec/10_state.md R22). -/
theorem State.outputs_congr {s t : State} (hbusy : t.busy = s.busy) (hdone : t.done = s.done) (herr : t.err = s.err)
    (hcode : t.errCode = s.errCode) (hpos : t.errPos = s.errPos) (hr : t.r = s.r) : t.outputs = s.outputs := by
  simp only [State.outputs, State.resultValid, hbusy, hdone, herr, hcode, hpos, hr]

/-- A busy block's field step goes on and shows what was shown before, or it ends the transaction, which only the commit
and a decode error do. -/
theorem fieldStep_keepsOutputs_or_ends {s t : State} (hb : s.busy = true) (h : fieldStep s = .next t) :
    (t.busy = true ∧ t.outputs = s.outputs) ∨
      (t.done = true ∧ (s.fsm = .sCommit ∨ t.fsm = .sDone ∧ t.err = true)) := by
  obtain ⟨-, -, -, -, hbusy, hdone, herr, hcode, hpos, hr⟩ | ⟨hcommit, -, -, hdone, -⟩ |
    ⟨-, hfsm, -, hdone, herr, -⟩ := fieldStepMovesOnOrEnds s t hb h
  · exact .inl ⟨hbusy, State.outputs_congr (hbusy.trans hb.symm) hdone herr hcode hpos hr⟩
  · exact .inr ⟨hdone, .inl hcommit⟩
  · exact .inr ⟨hdone, .inr ⟨hfsm, herr⟩⟩

/-- Settles O18: the field step that leaves the block idle sets `DONE` and keeps the boot flag, so the next start is an
accept. -/
theorem heldStartIsAcceptedAtTheNextEdge : Obligations.HeldStartIsAcceptedAtTheNextEdge := by
  intro s t p q stall hb hinit hp h hover hq hstart
  have hstep : fieldStep s = .next t := (clockEdge_busy hp hb).symm.trans h
  have hinitNext : t.initialised = true := (fieldStep_performs hstep).sameInput.initialised.trans hinit
  refine ⟨?_, clockEdge_accept hq hstart hover hinitNext⟩
  obtain ⟨hbusy, -⟩ | ⟨hdone, -⟩ := fieldStep_keepsOutputs_or_ends hb hstep
  · exact absurd (hbusy.symm.trans hover) nofun
  · exact hdone

/-- Settles O49: a stalled or waiting edge changes no state, and a field step that ends nothing changes no output. -/
theorem outputsChangeOnlyAtFourKindsOfEdge : Obligations.OutputsChangeOnlyAtFourKindsOfEdge := by
  intro s t p stall h hchange
  obtain ⟨hrst, -⟩ | ⟨-, -, -, rfl⟩ | ⟨-, hb, hstall, hstep⟩ | ⟨-, hb, hstart, -, haccept⟩ | ⟨-, -, -, rfl⟩ :=
    clockEdge_next h
  · exact .inl hrst
  · exact absurd rfl hchange
  · obtain ⟨-, hsame⟩ | ⟨-, hcommit | ⟨hfsm, herr⟩⟩ := fieldStep_keepsOutputs_or_ends hb hstep
    · exact absurd hsame hchange
    · exact .inr (.inr (.inl ⟨hb, hstall, hcommit⟩))
    · exact .inr (.inr (.inr ⟨hb, hstall, hfsm, herr⟩))
  · exact .inr (.inl ⟨hb, hstart, haccept⟩)
  · exact absurd rfl hchange

/-- Settles O14: the edge is a reset, and `State.afterReset` is the reset state with the host's actions kept (R38). -/
theorem resetClearsEveryRegister : Obligations.ResetClearsEveryRegister :=
  fun s _ stall hrst => clockEdge_reset stall s hrst

end Sys2Proof.Machine
end

section
/-! SUPPORT. The rows of the opcode table (spec/30_encoding.md R108): a row's mask keeps the fixed fields and the bits
of the two selectors that choose its form, and its match says what they are. -/

namespace Sys2Proof

/-- A word by the fields the opcode table's masks look at, the three fixed ones, coding_profile and sound_bed_type,
with 0 in all others. -/
def rowWord (sync : BitVec 12) (codec : BitVec 4) (anc : BitVec 1) (prof : BitVec 3) (sbt : BitVec 2) : HeaderWord :=
  sync ++ codec ++ anc ++ 0#3 ++ prof ++ 0#4 ++ 0#8 ++ sbt ++ 0#35

theorem append_eq_append_iff {v w : Nat} {x a : BitVec v} {y b : BitVec w} : x ++ y = a ++ b ↔ x = a ∧ y = b := by
  constructor
  · intro heq
    have hhigh := congrArg (BitVec.extractLsb' w v) heq
    have hlow := congrArg (BitVec.extractLsb' 0 w) heq
    rw [BitVec.extractLsb'_append_eq_left, BitVec.extractLsb'_append_eq_left] at hhigh
    rw [BitVec.extractLsb'_append_eq_right, BitVec.extractLsb'_append_eq_right] at hlow
    exact ⟨hhigh, hlow⟩
  · rintro ⟨rfl, rfl⟩
    rfl

section
variable {h : HeaderWord}

/-- A masked slice is compared part by part. -/
theorem slice_and_append_eq_append {lo v w : Nat} {m a : BitVec v} {n b : BitVec w} :
    h.slice lo (v + w) &&& (m ++ n) = a ++ b ↔ h.slice (lo + w) v &&& m = a ∧ h.slice lo w &&& n = b := by
  rw [← append_eq_slice.mpr ⟨rfl, rfl⟩, BitVec.and_append, append_eq_append_iff]

/-- A word is in a row when its fixed fields are right and its selectors match under the row's masks. -/
theorem and_rowWord_eq_rowWord {profMask prof : BitVec 3} {sbtMask sbt : BitVec 2} :
    h &&& rowWord 0xFFF#12 0xF#4 1#1 profMask sbtMask = rowWord 0xFFF#12 2#4 0#1 prof sbt ↔
      (h.slice 60 12 = 0xFFF#12 ∧ h.slice 56 4 = 2#4 ∧ h.slice 55 1 = 0#1) ∧
        h.slice 49 3 &&& profMask = prof ∧ h.slice 35 2 &&& sbtMask = sbt := by
  have hsync : h.slice 60 12 &&& 0xFFF#12 = h.slice 60 12 := BitVec.and_allOnes
  have hcodec : h.slice 56 4 &&& 0xF#4 = h.slice 56 4 := BitVec.and_allOnes
  have hanc : h.slice 55 1 &&& 1#1 = h.slice 55 1 := BitVec.and_allOnes
  have hwhole : h.slice 0 (12 + 4 + 1 + 3 + 3 + 4 + 8 + 2 + 35) = h := BitVec.extractLsb'_eq_self
  conv_lhs => rw [← hwhole, rowWord, rowWord]
  repeat rw [slice_and_append_eq_append]
  simp only [Nat.zero_add, Nat.reduceAdd, hsync, hcodec, hanc, BitVec.and_zero, and_true, and_assoc]

/-- A word has the fields every header of a profile has when its fixed fields are right and it names the profile. -/
theorem exists_common_iff {prof : BitVec 3} :
    (∃ nn sr crc1, h.Common nn prof sr crc1) ↔
      (h.slice 60 12 = 0xFFF#12 ∧ h.slice 56 4 = 2#4 ∧ h.slice 55 1 = 0#1) ∧ h.slice 49 3 = prof := by
  constructor
  · rintro ⟨nn, sr, crc1, hcommon⟩
    exact ⟨⟨hcommon.sync.symm, hcommon.codec.symm, hcommon.anc.symm⟩, hcommon.prof.symm⟩
  · rintro ⟨⟨hsync, hcodec, hanc⟩, hprof⟩
    exact ⟨_, _, _, hsync.symm, hcodec.symm, hanc.symm, rfl, hprof.symm, rfl, rfl⟩

theorem decode_eq_form_iff_fieldsOf {i : Instr} : h.decode = .form i ↔ i.wf = true ∧ i.FieldsOf h := by
  rw [decode_eq_form_iff_encode_eq, encode_eq_iff]

/-- A row whose mask keeps the whole coding_profile, and bits of sound_bed_type. -/
theorem maskedSoundBedRow_iff {prof : BitVec 3} {sbtMask sbt : BitVec 2} :
    h &&& rowWord 0xFFF#12 0xF#4 1#1 7#3 sbtMask = rowWord 0xFFF#12 2#4 0#1 prof sbt ↔
      (∃ nn sr crc1, h.Common nn prof sr crc1) ∧ h.slice 35 2 &&& sbtMask = sbt := by
  have hprof : h.slice 49 3 &&& 7#3 = h.slice 49 3 := BitVec.and_allOnes
  rw [and_rowWord_eq_rowWord, exists_common_iff, hprof, and_assoc (c := _ = sbt)]

/-- The row of a profile that has one form: its mask keeps no bit of sound_bed_type. -/
theorem profileRow_iff {prof : BitVec 3} :
    h &&& rowWord 0xFFF#12 0xF#4 1#1 7#3 0#2 = rowWord 0xFFF#12 2#4 0#1 prof 0#2 ↔
      ∃ nn sr crc1, h.Common nn prof sr crc1 := by
  rw [maskedSoundBedRow_iff, BitVec.and_zero, eq_self, and_true]

/-- A mask that keeps both bits of sound_bed_type fixes it. -/
theorem selectedSoundBedRow_iff {sbt : BitVec 2} :
    h &&& rowWord 0xFFF#12 0xF#4 1#1 7#3 3#2 = rowWord 0xFFF#12 2#4 0#1 1#3 sbt ↔
      (∃ nn sr crc1, h.Common nn 1#3 sr crc1) ∧ sbt = h.slice 35 2 := by
  have hsbt : h.slice 35 2 &&& 3#2 = h.slice 35 2 := BitVec.and_allOnes
  rw [maskedSoundBedRow_iff, hsbt, eq_comm (a := sbt)]

/-- The high bit alone tells the reserved sound-bed types 2 and 3 (R213). -/
theorem and_two_eq_two_iff : ∀ v : BitVec 2, v &&& 2#2 = 2#2 ↔ 2 ≤ v.toNat := by decide

theorem reservedSoundBedRow_iff :
    h &&& rowWord 0xFFF#12 0xF#4 1#1 7#3 2#2 = rowWord 0xFFF#12 2#4 0#1 1#3 2#2 ↔
      2 ≤ (h.slice 35 2).toNat ∧ ∃ nn sr crc1, h.Common nn 1#3 sr crc1 := by
  rw [maskedSoundBedRow_iff, and_two_eq_two_iff, and_comm]

/-- The high bit alone tells the reserved coding profiles 4 to 7 (R156). -/
theorem and_four_eq_four_iff : ∀ v : BitVec 3, v &&& 4#3 = 4#3 ↔ 4 ≤ v.toNat := by decide

theorem reservedProfilesRow_iff :
    h &&& rowWord 0xFFF#12 0xF#4 1#1 4#3 0#2 = rowWord 0xFFF#12 2#4 0#1 4#3 0#2 ↔
      ∃ (nn prof : BitVec 3), 4 ≤ prof.toNat ∧ ∃ sr crc1, h.Common nn prof sr crc1 := by
  simp only [and_rowWord_eq_rowWord, and_four_eq_four_iff, BitVec.and_zero, and_true]
  constructor
  · rintro ⟨hfixed, hprof⟩
    obtain ⟨nn, sr, crc1, hcommon⟩ := exists_common_iff.mpr ⟨hfixed, rfl⟩
    exact ⟨nn, _, hprof, sr, crc1, hcommon⟩
  · rintro ⟨nn, prof, hprof, hcommon⟩
    obtain ⟨hfixed, rfl⟩ := exists_common_iff.mp ⟨nn, hcommon⟩
    exact ⟨hfixed, hprof⟩

end

/-- Settles O3: a word is of a form when it has the fields of a well-formed header of the form, of which all but the
fixed ones and the selectors are free. The numbers of each row are its `rowWord`s. -/
theorem formMapMatchesOpcodeTable : Obligations.FormMapMatchesOpcodeTable := by
  intro h
  simp only [decode_eq_form_iff_fieldsOf, Instr.FieldsOf, Instr.wf, decide_eq_true_eq, true_and, and_true,
    exists_and_left, exists_and_right, exists_eq, exists_eq_right_right]
  refine ⟨?ch, ?obj, ?chobj, ?hoa, ?rsvSbt, ?rsvProf3, ?rsvProf4to7⟩
  case ch => exact (profileRow_iff (prof := 0#3)).symm
  case obj => exact (selectedSoundBedRow_iff (sbt := 0#2)).symm
  case chobj => exact (selectedSoundBedRow_iff (sbt := 1#2)).symm
  case hoa => exact (profileRow_iff (prof := 2#3)).symm
  case rsvSbt => exact reservedSoundBedRow_iff.symm
  case rsvProf3 => exact (profileRow_iff (prof := 3#3)).symm
  case rsvProf4to7 => exact reservedProfilesRow_iff.symm

/-- A number decodes to the header its word decodes to. -/
theorem decodeTableWord_eq_some_iff {n w : Nat} {i : Instr} :
    decodeTableWord n w = some i ↔ (tableWord n w).decode = .form i := by
  unfold decodeTableWord
  rw [decodeBytes_toList, headerWordOf_bytes]
  split
  · next j hj => rw [hj, Option.some.injEq, Decoded.form.injEq]
  · next r hr => simp [hr]

/-- A word that encodes a header decodes to it. -/
theorem decodeTableWord_of_encode {w : Nat} {i : Instr} (hwf : i.wf = true) (hw : encode i = BitVec.ofNat 72 w) :
    decodeTableWord 72 w = some i := by
  rw [decodeTableWord_eq_some_iff, tableWord_all]
  exact decode_eq_form_iff_encode_eq.mpr ⟨hwf, hw⟩

/-- Settles O4: each word is the encoding of its header. -/
theorem specWordsDecodeToTheirForms : Obligations.SpecWordsDecodeToTheirForms := by
  refine ⟨?_, ?_, ?_, ?_, ?_, ?_, ?_⟩
  all_goals exact decodeTableWord_of_encode rfl (by decide)

end Sys2Proof
end

section
/-! SUPPORT. Placing a header word (log 3), and a start before the first reset (log 6). -/

namespace Sys2Proof.Machine

/-- The action next to a placed word is WAIT, at the state an accept of the word leaves. -/
theorem step_withFetchWord (s : State) (n w : Nat) :
    step (s.withFetchWord n w) =
      waitDone (s.accept { rst := false, start := true, inData := tableWord n w, inLen := 9 }) :=
  step_of_wait rfl rfl

/-- Settles O9: the step is WAIT's, which runs the meaning of the header that the accepted word decodes to. -/
theorem placedWordIsRunNext : Obligations.PlacedWordIsRunNext := by
  intro s n w i hi
  rw [step_withFetchWord, waitDone_accept, decodeTableWord_eq_some_iff.mp hi]

/-- Settles O16: the edge is no reset and the block not busy, so the start is looked at, and refused (R342). -/
theorem startBeforeTheFirstResetIsRefused : Obligations.StartBeforeTheFirstResetIsRefused := by
  intro s p stall hrst hstart hb hinit
  simp [clockEdge, hrst, hstart, hb, hinit]

end Sys2Proof.Machine
end
